-- ==== Sys2Proof/Word.lean ====
section
/-!
DEFINITION. The word types of the block: 32-bit registers and command words, 8-bit characters and key bytes,
64-bit timestamps and counters (spec 00 R8, 10 R20).
-/

namespace Sys2Proof

/-- A 32-bit register value or command word (10 R20, 30 R80). -/
abbrev Word := BitVec 32

/-- A character code, a key byte or a digest byte (30 R82, 00 R10). -/
abbrev Byte := BitVec 8

/-- A timestamp or a time counter: an unsigned 64-bit value (00 R8, 10 R28, R32). -/
abbrev DWord := BitVec 64

end Sys2Proof
end

