-- ==== Sys2Proof/Config.lean ====
section
/-!
DEFINITION. What an implementation fixes (the parameters of 00 R6) and the free values: what the spec leaves open
for the model to draw, as constants with no body.
-/

namespace Sys2Proof

/-- The parameters of 00 R6. They are plain data, held in the state and changed by no step (log 1). -/
structure Params where
  /-- `BASE`: the byte address of the register window in the host's address space (00 R6, 92 D3). -/
  base : Nat
  /-- `KEY_MAX_BYTES`: the capacity of the key buffer, 1..256 (00 R6, 92 D13). -/
  keyMaxBytes : Nat
  /-- `KEY_READABLE`: whether the KEY window shows the key bytes (00 R6, 92 D14). -/
  keyReadable : Bool
  /-- `DIGEST_FAULT_POSSIBLE`: whether a TOTP_GENERATE may fail with ERR_DIGEST (00 R6, 92 D21). -/
  digestFaultPossible : Bool
  deriving DecidableEq, Repr

/-- The defaults of 00 R6. `BASE` has none (it is OPEN): 0 is the model's DESIGN CHOICE, unsafe (log 2); a run for
another base starts from `State.resetWith`. -/
def Params.default : Params :=
  { base := 0, keyMaxBytes := 64, keyReadable := true, digestFaultPossible := false }

/-- Free value: how many host steps pass between the acceptance of a command and its performance, for the `n`-th
draw: any finite number (70 R198, 93 X6; log 5). -/
opaque Config.freeLatency : Nat → Nat

/-- Free value: the outcome `digestFails` of the `n`-th draw, "a Boolean under no law" (41 R129; log 6). -/
opaque Config.freeDigestFails : Nat → Bool

/-- Free value: what the host finds in a variable it has not set, for which the spec states no value
(30 R86; log 7). -/
opaque Config.freeUnsetVariable : Nat → Word

end Sys2Proof
end

