-- ==== Sys2Proof/Machine/HostSyntax.lean ====
section
/-!
DEFINITION. The host's side of the window: the names of the registers (10 R20), a host access (20 R60, R61) and the
host's statements (30 R86).
-/

namespace Sys2Proof.Machine

/-- The registers of the map of 10 R20. -/
inductive Reg where
  | ctrl | status | cmd | timeStep | digits | nowLo | nowHi
  | keyLen | decAcc | counterLo | counterHi | offset | code31 | codeBin | remaining | params
  | digest (k : Fin 5)
  | codeStr (w : Fin 3)
  | key (w : Fin 64)
  deriving DecidableEq, Repr

/-- The offset of a register in the window (10 R20). -/
def Reg.offsetOf : Reg → Nat
  | .ctrl => 0x000
  | .status => 0x004
  | .cmd => 0x008
  | .timeStep => 0x00C
  | .digits => 0x010
  | .nowLo => 0x014
  | .nowHi => 0x018
  | .keyLen => 0x01C
  | .decAcc => 0x020
  | .counterLo => 0x024
  | .counterHi => 0x028
  | .offset => 0x02C
  | .code31 => 0x030
  | .codeBin => 0x034
  | .remaining => 0x038
  | .params => 0x03C
  | .digest k => 0x040 + 4 * k.val
  | .codeStr w => 0x054 + 4 * w.val
  | .key w => 0x100 + 4 * w.val

/-- The width of a host access; only 32 bits is supported (20 R61). -/
inductive Width where
  | w8 | w16 | w32 | w64
  deriving DecidableEq, Repr

/-- A host access: a byte address of the host's address space and a width (20 R60, R61). -/
structure Access where
  addr : Nat
  width : Width
  deriving DecidableEq, Repr

/-- Where an access lands (20 R60, R61). -/
inductive Target where
  /-- An aligned 32-bit access to the window, with its offset `addr - BASE`. -/
  | register (a : Nat)
  /-- An access to the window of another width or at an offset that is no multiple of 4. -/
  | unsupported
  /-- An address that is not the block's. -/
  | outside
  deriving DecidableEq, Repr

/-- A statement of the host's program (30 R86). Variables and labels are numbers. -/
inductive HostStmt where
  /-- `WR`: a write of the value `v`. -/
  | wr (acc : Access) (v : Word)
  /-- `RD ... -> t`: a read into the host variable `t`. -/
  | rd (acc : Access) (t : Nat)
  /-- `L:` a label. -/
  | label (l : Nat)
  /-- `BNZ t & m, L`. -/
  | bnz (t : Nat) (m : Word) (l : Nat)
  /-- `BZ t & m, L`. -/
  | bz (t : Nat) (m : Word) (l : Nat)
  /-- Not a statement of 30 R86: the platform's reset of the block (70 R191), placed in the order of the host's
  statements where it falls (DESIGN CHOICE, safe: log 11). -/
  | platformReset
  deriving DecidableEq, Repr

end Sys2Proof.Machine
end

