-- ==== Sys2Proof/Machine/State.lean ====
section
/-!
DEFINITION. The state of the machine: everything 10 R44 lists, the parameters of 00 R6, the host's side (00 R12,
30 R86) and the model's own counters for the free values; the reset state (70 R190); the reasons a step can stop.
-/

namespace Sys2Proof.Machine

/-- KEYBUF (10 R41): index and byte, indexes strictly rising, no byte 0x00 listed; an unlisted byte reads 0x00, the
reset value (70 R190). See `Memory.wf` (log 13). -/
abbrev Memory := List Host.Cell

/-- CTRL (10 R23). -/
structure Ctrl where
  strict : Bool
  minkeyEn : Bool
  minKeyBytes : Byte
  deriving DecidableEq, Repr

/-- The fields of STATUS, bits 0 to 13 in order (10 R24). -/
structure Status where
  busy : Bool
  resultValid : Bool
  keyClosed : Bool
  keyValid : Bool
  errInvalidSecret : Bool
  warnCharSkipped : Bool
  errKeyOverflow : Bool
  warnDegenerateKey : Bool
  errNoKey : Bool
  errDigest : Bool
  errConfig : Bool
  errCmd : Bool
  errSequence : Bool
  errBusy : Bool
  deriving DecidableEq, Repr

/-- The errors of STATUS bits 13:8, those a host clears by writing 1 (10 R24, 60 R172). -/
inductive ErrBit where
  | noKey | digest | config | cmd | sequence | busy
  deriving DecidableEq, Repr

/-- DIGEST0..DIGEST4 (10 R38). -/
structure DigestWords where
  d0 : Word
  d1 : Word
  d2 : Word
  d3 : Word
  d4 : Word
  deriving DecidableEq, Repr

/-- CODE_STR0..CODE_STR2 (10 R39). -/
structure CodeStr where
  c0 : Word
  c1 : Word
  c2 : Word
  deriving DecidableEq, Repr

/-- The result registers (10 R32-R39). -/
structure Results where
  counter : DWord
  offset : BitVec 4
  code31 : BitVec 31
  codeBin : Word
  remaining : Word
  digest : DigestWords
  codeStr : CodeStr
  deriving DecidableEq, Repr

/-- The result registers all zero: after reset (70 R190) and after a failure (41 R121). -/
def Results.zero : Results :=
  { counter := 0, offset := 0, code31 := 0, codeBin := 0, remaining := 0,
    digest := ⟨0, 0, 0, 0, 0⟩, codeStr := ⟨0, 0, 0⟩ }

/-- The host agent (00 R12, 30 R86): its program, its position in it and its variables (name and value, names strictly
rising, an unset variable absent). It is no state of the block (10 R44); log 3. -/
structure HostSide where
  program : List HostStmt
  pc : Nat
  vars : List (Nat × Word)
  deriving DecidableEq, Repr

/-- The machine's state. -/
structure State where
  /-- The parameters of 00 R6; no step changes them. -/
  params : Params
  ctrl : Ctrl
  status : Status
  timeStep : Word
  digits : Word
  nowLo : Word
  nowHi : Word
  /-- ACC (10 R31). -/
  acc : BitVec 7
  /-- NBITS (10 R31). -/
  nbits : BitVec 3
  keybuf : Memory
  /-- KEY_LEN, bits 8:0 (10 R30). -/
  keyLen : BitVec 9
  results : Results
  /-- PENDING (10 R42): none, or the command word that was accepted and is not yet performed. -/
  pending : Option Word
  /-- The model's own: the host steps still to run before the pending command is performed (70 R198; log 5). -/
  delay : Nat
  /-- The model's own: how many free values have been drawn (log 5, log 6). -/
  draws : Nat
  host : HostSide
  deriving DecidableEq, Repr

/-- Why a step faults. -/
inductive Fault where
  /-- Raised by a host access to the window that is not an aligned 32-bit access, naming the access (20 R61). Safe: a
  program that makes such an access has no provable claim. -/
  | busAccessUnsupported (acc : Access)
  deriving DecidableEq, Repr

/-- Why a step is refused. -/
inductive Refusal where
  /-- Raised by an arm of `exec` whose command has no meaning yet. Safe. No arm uses it. -/
  | notModelled (mnemonic : String)
  /-- Raised by a host access to an address that is not the block's: "the platform decides what they do" (20 R60). Safe
  (log 9). -/
  | addressOutsideWindow (acc : Access)
  /-- Raised by a host branch to a label its program does not define; 30 R86 gives it no meaning. Safe (log 10). -/
  | undefinedLabel (l : Nat)
  /-- Raised by the block's step when PENDING holds a word that 43 R161 has no case for. 10 R42 and 43 R160 rule it out,
  so no run reaches it. Safe (log 12). -/
  | pendingNotPerformable (w : Word)
  deriving DecidableEq, Repr

/-- CTRL after reset: 0x00000A01 (70 R190). -/
def Ctrl.reset : Ctrl := { strict := true, minkeyEn := false, minKeyBytes := 10 }

/-- STATUS after reset: every bit 0 (70 R190). -/
def Status.reset : Status :=
  { busy := false, resultValid := false, keyClosed := false, keyValid := false,
    errInvalidSecret := false, warnCharSkipped := false, errKeyOverflow := false, warnDegenerateKey := false,
    errNoKey := false, errDigest := false, errConfig := false, errCmd := false, errSequence := false,
    errBusy := false }

/-- The machine right after the reset event of 70 R190, for the given parameters, with no host program (log 4). -/
def State.resetWith (p : Params) : State :=
  { params := p
    ctrl := Ctrl.reset
    status := Status.reset
    timeStep := 30
    digits := 6
    nowLo := 0
    nowHi := 0
    acc := 0
    nbits := 0
    keybuf := []
    keyLen := 0
    results := Results.zero
    pending := none
    delay := 0
    draws := 0
    host := { program := [], pc := 0, vars := [] } }

/-- The machine right after reset, with the default parameters of 00 R6. -/
def State.reset : State := State.resetWith Params.default

end Sys2Proof.Machine
end

