-- ==== Sys2Proof/Machine/Flags.lean ====
section
/-!
DEFINITION. CTRL and STATUS as words (10 R23, R24), the write-1-to-clear write of STATUS (10 R25) and the setting of an
error bit (60 R170).
-/

namespace Sys2Proof.Machine

/-- CTRL as a host reads it: STRICT in bit 0, MINKEY_EN in bit 1, MIN_KEY_BYTES in bits 15:8, the rest 0 (10 R23). -/
def Ctrl.toWord (c : Ctrl) : Word :=
  0#16 ++ c.minKeyBytes ++ 0#6 ++ BitVec.ofBool c.minkeyEn ++ BitVec.ofBool c.strict

/-- What a write of `v` leaves in CTRL: `STRICT <- v[0]; MINKEY_EN <- v[1]; MIN_KEY_BYTES <- v[15:8]` (10 R23). -/
def Ctrl.ofWord (v : Word) : Ctrl :=
  { strict := v.getLsbD 0, minkeyEn := v.getLsbD 1, minKeyBytes := v.extractLsb' 8 8 }

/-- STATUS as a host reads it: bits 13 to 0 in the order of 10 R24, the rest 0. -/
def Status.toWord (t : Status) : Word :=
  0#18 ++ BitVec.ofBool t.errBusy ++ BitVec.ofBool t.errSequence ++ BitVec.ofBool t.errCmd ++
    BitVec.ofBool t.errConfig ++ BitVec.ofBool t.errDigest ++ BitVec.ofBool t.errNoKey ++
    BitVec.ofBool t.warnDegenerateKey ++ BitVec.ofBool t.errKeyOverflow ++ BitVec.ofBool t.warnCharSkipped ++
    BitVec.ofBool t.errInvalidSecret ++ BitVec.ofBool t.keyValid ++ BitVec.ofBool t.keyClosed ++
    BitVec.ofBool t.resultValid ++ BitVec.ofBool t.busy

/-- A host write of `v` to STATUS: `STATUS[13:8] <- STATUS[13:8] & ~v[13:8]` and nothing else (10 R25). -/
def Status.clearBy (v : Word) (t : Status) : Status :=
  { t with
    errNoKey := t.errNoKey && !v.getLsbD 8
    errDigest := t.errDigest && !v.getLsbD 9
    errConfig := t.errConfig && !v.getLsbD 10
    errCmd := t.errCmd && !v.getLsbD 11
    errSequence := t.errSequence && !v.getLsbD 12
    errBusy := t.errBusy && !v.getLsbD 13 }

/-- `set ERR_X` for the bits 13:8 (60 R170). -/
def Status.set : ErrBit → Status → Status
  | .noKey, t => { t with errNoKey := true }
  | .digest, t => { t with errDigest := true }
  | .config, t => { t with errConfig := true }
  | .cmd, t => { t with errCmd := true }
  | .sequence, t => { t with errSequence := true }
  | .busy, t => { t with errBusy := true }

/-- Whether an error bit of 13:8 is set. -/
def Status.has : ErrBit → Status → Bool
  | .noKey, t => t.errNoKey
  | .digest, t => t.errDigest
  | .config, t => t.errConfig
  | .cmd, t => t.errCmd
  | .sequence, t => t.errSequence
  | .busy, t => t.errBusy

/-- The STATUS bit number of an error, its code (10 R24, 60 R172). -/
def ErrBit.bit : ErrBit → Nat
  | .noKey => 8
  | .digest => 9
  | .config => 10
  | .cmd => 11
  | .sequence => 12
  | .busy => 13

/-- STATUS bits 2-7 all 0, the rest kept: the flags DEC_CLEAR writes (40 R100). -/
def Status.clearDecoder (t : Status) : Status :=
  { t with
    keyClosed := false
    keyValid := false
    errInvalidSecret := false
    warnCharSkipped := false
    errKeyOverflow := false
    warnDegenerateKey := false }

end Sys2Proof.Machine
end

