-- ==== Sys2Proof/Syntax.lean ====
section
/-!
DEFINITION. The commands of the block, one constructor per row of spec/opcode_table.json (30 R81).
-/

namespace Sys2Proof

/-- The five commands of 30 R81. Only DEC_PUSH has an operand, an 8-bit character code (30 R82). -/
inductive Instr where
  /-- DEC_CLEAR: start a new secret (40 R100). -/
  | decClear
  /-- DEC_PUSH c: feed one character of the secret (40 R101). -/
  | decPush (c : Byte)
  /-- DEC_FINISH: end the secret (40 R104). -/
  | decFinish
  /-- TOTP_GENERATE: compute the code and the validity window (41 R120). -/
  | totpGenerate
  /-- SOFT_RESET: return the block to its reset state (43 R163). -/
  | softReset
  deriving DecidableEq, Repr

end Sys2Proof
end

