-- ==== Sys2Proof/Decode.lean ====
section
/-!
DEFINITION. The command word (30 R80, R81, R84): its fields, the decoder (total, rejecting by name), the encoder, the
opcode table as data, and the host's `decodeTableWord`.
-/

namespace Sys2Proof

/-- Why a word is not a legal command (30 R84). -/
inductive IllegalWord where
  /-- A nonzero RSV field. -/
  | reservedFieldNonzero
  /-- A nonzero ARG with an OPC other than 0x02. -/
  | argNonzero
  /-- An OPC other than 0x01, 0x02, 0x03, 0x10, 0xFF. -/
  | unknownOpc
  deriving DecidableEq, Repr

/-- What the decoder answers for a word. -/
inductive Decoded where
  | instr (i : Instr)
  | illegal (why : IllegalWord)
  deriving DecidableEq, Repr

/-- OPC, bits 7:0 (30 R80). -/
def opcField (w : Word) : Byte := w.extractLsb' 0 8

/-- ARG, bits 15:8 (30 R80). -/
def argField (w : Word) : Byte := w.extractLsb' 8 8

/-- RSV, bits 31:16 (30 R80). -/
def rsvField (w : Word) : BitVec 16 := w.extractLsb' 16 16

/-- A command without an operand: ARG must be 0x00 (30 R80). -/
def withoutArg (w : Word) (i : Instr) : Decoded :=
  if argField w = 0 then .instr i else .illegal .argNonzero

/-- The command a word stands for, or why it is illegal (30 R81, R84). -/
def decode (w : Word) : Decoded :=
  if rsvField w ≠ 0 then .illegal .reservedFieldNonzero
  else if opcField w = 0x01 then withoutArg w .decClear
  else if opcField w = 0x02 then .instr (.decPush (argField w))
  else if opcField w = 0x03 then withoutArg w .decFinish
  else if opcField w = 0x10 then withoutArg w .totpGenerate
  else if opcField w = 0xFF then withoutArg w .softReset
  else .illegal .unknownOpc

/-- A word of the one format of 30 R80, its reserved field zero. -/
def commandWord (arg opc : Byte) : Word := 0#16 ++ arg ++ opc

/-- The word of a command (30 R81, R86). -/
def encode : Instr → Word
  | .decClear => commandWord 0x00 0x01
  | .decPush c => commandWord c 0x02
  | .decFinish => commandWord 0x00 0x03
  | .totpGenerate => commandWord 0x00 0x10
  | .softReset => commandWord 0x00 0xFF

/-- One row of the table of 30 R81. -/
structure OpcodeRow where
  mnemonic : String
  word : Word
  mask : Word
  deriving DecidableEq, Repr

/-- The table of 30 R81: "a word `w` is legal when `(w & mask) = match` for one row". -/
def opcodeTable : List OpcodeRow :=
  [ ⟨"DEC_CLEAR", 0x00000001, 0xFFFFFFFF⟩,
    ⟨"DEC_PUSH", 0x00000002, 0xFFFF00FF⟩,
    ⟨"DEC_FINISH", 0x00000003, 0xFFFFFFFF⟩,
    ⟨"TOTP_GENERATE", 0x00000010, 0xFFFFFFFF⟩,
    ⟨"SOFT_RESET", 0x000000FF, 0xFFFFFFFF⟩ ]

/-- The row's own test of 30 R81. -/
def OpcodeRow.accepts (r : OpcodeRow) (w : Word) : Bool := w &&& r.mask == r.word

/-- The mnemonic of a command's row. -/
def Instr.mnemonic : Instr → String
  | .decClear => "DEC_CLEAR"
  | .decPush _ => "DEC_PUSH"
  | .decFinish => "DEC_FINISH"
  | .totpGenerate => "TOTP_GENERATE"
  | .softReset => "SOFT_RESET"

/-- The command my decoder reads from a table word of `nbits` bits; bits the table does not give are 0. There is one
command length, 32 bits (30 R85), and no byte lanes (20 R63), so the word is taken whole. -/
def decodeTableWord (nbits w : Nat) : Option Instr :=
  if nbits ≤ 32 then
    match decode (BitVec.ofNat 32 (w % 2 ^ nbits)) with
    | .instr i => some i
    | .illegal _ => none
  else none

end Sys2Proof
end

