-- ==== Sys2Proof/Machine/Operands.lean ====
section
/-!
DEFINITION. The operand forms: a character and its place in the alphabet (40 R102), byte sequences and words (00 R10,
20 R63), register offsets (10 R20) and where a host access lands (20 R60, R61).
-/

namespace Sys2Proof.Machine

/-- Normalisation to uppercase: only 0x61..0x7A is folded (40 R102). -/
def foldCase (c : Byte) : Byte := if 0x61 ≤ c ∧ c ≤ 0x7A then c - 0x20 else c

/-- `classify(c)`: the value of a character of the alphabet A-Z2-7, none outside it (40 R102). -/
def classify (c : Byte) : Option (BitVec 5) :=
  let u := foldCase c
  if 0x41 ≤ u ∧ u ≤ 0x5A then some ((u - 0x41).setWidth 5)
  else if 0x32 ≤ u ∧ u ≤ 0x37 then some ((u - 0x32 + 26).setWidth 5)
  else none

/-- Word `w` of a byte sequence, the lower index in the more significant byte (20 R63; 10 R38-R40). -/
def packWord (s : Nat → Byte) (w : Nat) : Word :=
  s (4 * w) ++ s (4 * w + 1) ++ s (4 * w + 2) ++ s (4 * w + 3)

/-- Byte `i` of a byte list, 0x00 beyond its end. -/
def byteAt (l : List Byte) (i : Nat) : Byte := l.getD i 0

/-- `be64(x)`: the 8 bytes of a 64-bit value, most significant first (00 R10). -/
def be64 (x : DWord) : List Byte := (List.range 8).map fun k => x.extractLsb' (56 - 8 * k) 8

/-- `be32(x)`: the 4 bytes of a word, most significant first (42 R148). -/
def be32 (x : Word) : List Byte := (List.range 4).map fun k => x.extractLsb' (24 - 8 * k) 8

/-- The registers of the map of 10 R20, in the order of their offsets. -/
def allRegs : List Reg :=
  [.ctrl, .status, .cmd, .timeStep, .digits, .nowLo, .nowHi, .keyLen, .decAcc, .counterLo, .counterHi, .offset,
    .code31, .codeBin, .remaining, .params] ++
    [.digest 0, .digest 1, .digest 2, .digest 3, .digest 4, .codeStr 0, .codeStr 1, .codeStr 2] ++
    (List.range 64).map fun w => .key (Fin.ofNat 64 w)

/-- The register at an offset of the window; none at the reserved offsets (10 R20). -/
def regAt (a : Nat) : Option Reg := allRegs.find? fun r => r.offsetOf == a

/-- Where an access lands: outside the window, or in it at the offset `addr - BASE` (20 R60), where only an aligned
32-bit access is supported (20 R61). -/
def Access.target (p : Params) (acc : Access) : Target :=
  if acc.addr < p.base ∨ p.base + 0x200 ≤ acc.addr then .outside
  else if acc.width = .w32 ∧ (acc.addr - p.base) % 4 = 0 then .register (acc.addr - p.base)
  else .unsupported

/-- The aligned 32-bit access to a register (30 R86). -/
def regAccess (p : Params) (r : Reg) : Access := { addr := p.base + r.offsetOf, width := .w32 }

/-- A command that may become pending: every one but SOFT_RESET (43 R160, R161). -/
def pendable : Instr → Bool
  | .decClear => true
  | .decPush _ => true
  | .decFinish => true
  | .totpGenerate => true
  | .softReset => false

end Sys2Proof.Machine
end

