-- ==== Sys2Proof/Machine/Ops.lean ====
section
/-!
DEFINITION. The named operations over the state: KEYBUF, the error primitive, acceptance and retirement of a command,
reset, and the host's own state.
-/

namespace Sys2Proof.Machine

/-- The byte of KEYBUF at an index; an unlisted byte is 0x00 (70 R190, 10 R41). -/
def Memory.read : Memory → Nat → Byte
  | [], _ => 0
  | (k, v) :: rest, a => if k = a then v else Memory.read rest a

/-- Write one byte of KEYBUF, keeping the canonical form: writing 0x00 removes the entry. -/
def Memory.write : Memory → Nat → Byte → Memory
  | [], a, b => if b = 0 then [] else [(a, b)]
  | (k, v) :: rest, a, b =>
    if a < k then (if b = 0 then (k, v) :: rest else (a, b) :: (k, v) :: rest)
    else if a = k then (if b = 0 then rest else (a, b) :: rest)
    else (k, v) :: Memory.write rest a b

/-- The canonical form of KEYBUF: indexes strictly rising, no listed byte 0x00. -/
def Memory.wf (m : Memory) : Bool :=
  decide (List.Pairwise (fun x y : Host.Cell => x.1 < y.1) m) && m.all fun c => c.2 != 0

/-- `KEYBUF[0 .. KEY_LEN-1]`, the key (41 R120). -/
def State.key (s : State) : List Byte := (List.range s.keyLen.toNat).map s.keybuf.read

/-- `NOW = NOW_HI << 32 | NOW_LO` (10 R28). -/
def State.now (s : State) : DWord := s.nowHi ++ s.nowLo

/-- `set ERR_X`, the block's only "raise" primitive (00 R11): it sets the bit and transfers no control, saves nothing
and stops nothing (60 R170, R175). The block has no exception entry; its acknowledgement is `Status.clearBy`
(60 R176). -/
def State.raise (e : ErrBit) (s : State) : State := { s with status := s.status.set e }

/-- `fail(E)`: set the error, zero every result register, clear RESULT_VALID (41 R121). -/
def State.fail (e : ErrBit) (s : State) : State :=
  { s with
    results := Results.zero
    status := { s.status.set e with resultValid := false } }

/-- `commit`: the results of one performance and RESULT_VALID, in one step (41 R128). -/
def State.commit (r : Results) (s : State) : State :=
  { s with
    results := r
    status := { s.status with resultValid := true } }

/-- Take one free value: the next draw is another one (log 5, log 6). -/
def State.drawn (s : State) : State := { s with draws := s.draws + 1 }

/-- `draw(digestFails)`: no draw and no failure where DIGEST_FAULT_POSSIBLE is false, else a free Boolean
(41 R129). -/
def State.drawDigest (s : State) : Bool × State :=
  if s.params.digestFaultPossible then (Config.freeDigestFails s.draws, s.drawn) else (false, s)

/-- Put a legal word into PENDING with BUSY = 1, to be performed after `n` host steps; TOTP_GENERATE clears
RESULT_VALID (43 R160). -/
def State.place (w : Word) (n : Nat) (s : State) : State :=
  { s with
    pending := some w
    delay := n
    status := { s.status with
      busy := true
      resultValid := s.status.resultValid && !(w == 0x00000010#32) } }

/-- Acceptance of a legal word (43 R160), its latency a free value (70 R198). -/
def State.accept (w : Word) (s : State) : State := (s.place w (Config.freeLatency s.draws)).drawn

/-- `PENDING <- none; STATUS.BUSY <- 0`, at the end of the block's step (43 R161). -/
def State.retire (s : State) : State :=
  { s with
    pending := none
    delay := 0
    status := { s.status with busy := false } }

/-- The reset event of 70 R190: every register, KEYBUF, PENDING and BUSY; the parameters are constants (10 R37), and
the host's own state and the model's count of draws are not the block's (log 18). -/
def State.softReset (s : State) : State :=
  { State.resetWith s.params with
    draws := s.draws
    host := s.host }

/-- The statement the host runs next, none when its program has ended. -/
def State.hostStmt (s : State) : Option HostStmt := s.host.program[s.host.pc]?

/-- What every host step does beside its statement: the next statement is the following one (30 R86), and a pending
command's performance is one host step nearer (70 R198). -/
def State.hostTick (s : State) : State :=
  { s with
    delay := s.delay - 1
    host := { s.host with pc := s.host.pc + 1 } }

/-- Set a host variable, keeping names strictly rising. -/
def setVariable : List (Nat × Word) → Nat → Word → List (Nat × Word)
  | [], t, v => [(t, v)]
  | (k, u) :: rest, t, v =>
    if t < k then (t, v) :: (k, u) :: rest
    else if t = k then (t, v) :: rest
    else (k, u) :: setVariable rest t v

/-- The value of a host variable; a variable never set has a free value (log 7). -/
def getVariable : List (Nat × Word) → Nat → Word
  | [], t => Config.freeUnsetVariable t
  | (k, u) :: rest, t => if k = t then u else getVariable rest t

/-- `t <- v` for a host variable (30 R86). -/
def State.assign (t : Nat) (v : Word) (s : State) : State :=
  { s with host := { s.host with vars := setVariable s.host.vars t v } }

/-- The index of a label in the host's program. -/
def labelIndex (p : List HostStmt) (l : Nat) : Option Nat := p.findIdx? (fun st => st == .label l)

/-- The host continues at a position of its program (30 R86). -/
def State.goto (i : Nat) (s : State) : State := { s with host := { s.host with pc := i } }

end Sys2Proof.Machine
end

