-- ==== Sys2Proof/Machine/Control.lean ====
section
/-!
DEFINITION. SOFT_RESET (43 R163).
-/

namespace Sys2Proof.Machine

/-- SOFT_RESET: exactly the reset of 70 R190, in every state, BUSY = 1 included; a pending command is discarded
(43 R163). -/
def execSoftReset (s : State) : Host.Outcome State Fault Refusal := .next s.softReset

end Sys2Proof.Machine
end

