-- ==== Sys2Proof/Machine/Decoder.lean ====
section
/-!
DEFINITION. The Base32 decoder commands: DEC_CLEAR (40 R100), DEC_PUSH (40 R101, R103), DEC_FINISH (40 R104).
-/

namespace Sys2Proof.Machine

/-- DEC_CLEAR (40 R100). -/
def execDecClear (s : State) : Host.Outcome State Fault Refusal :=
  .next { s with
    acc := 0
    nbits := 0
    keybuf := []
    keyLen := 0
    status := s.status.clearDecoder }

/-- Store the produced byte, or drop it and set ERR_KEY_OVERFLOW when the buffer is full (40 R103). -/
def State.appendKeyByte (b : Byte) (s : State) : State :=
  if s.keyLen.toNat < s.params.keyMaxBytes then
    { s with
      keybuf := s.keybuf.write s.keyLen.toNat b
      keyLen := s.keyLen + 1 }
  else { s with status := { s.status with errKeyOverflow := true } }

/-- The bits pending after a symbol: `t = (ACC << 5) | v`, at most 12 bits (40 R103). -/
def packedBits (acc : BitVec 7) (v : BitVec 5) : BitVec 12 := acc ++ v

/-- `pack(v)` (40 R103): with `n = NBITS + 5` pending bits `t`, the 8 oldest form a byte when there are that many. -/
def State.pack (v : BitVec 5) (s : State) : State :=
  let t := packedBits s.acc v
  let n := s.nbits.toNat + 5
  if 8 ≤ n then
    { s.appendKeyByte ((t >>> (n - 8)).setWidth 8) with
      acc := BitVec.ofNat 7 (t.toNat % 2 ^ (n - 8))
      nbits := BitVec.ofNat 3 (n - 8) }
  else
    { s with
      acc := t.setWidth 7
      nbits := BitVec.ofNat 3 n }

/-- A character outside the alphabet: ERR_INVALID_SECRET in strict mode, WARN_CHAR_SKIPPED in lenient mode, no bits
packed (40 R101). -/
def State.rejectChar (s : State) : State :=
  if s.ctrl.strict then { s with status := { s.status with errInvalidSecret := true } }
  else { s with status := { s.status with warnCharSkipped := true } }

/-- DEC_PUSH c (40 R101), its priorities those of 60 R173 item 3. -/
def execDecPush (c : Byte) (s : State) : Host.Outcome State Fault Refusal :=
  if s.status.keyClosed then .next (s.raise .sequence)
  else
    match classify c with
    | none => .next s.rejectChar
    | some v => .next (s.pack v)

/-- `deg`: the key is empty or shorter than MIN_KEY_BYTES (40 R104). -/
def State.degenerate (s : State) : Bool :=
  decide (s.keyLen.toNat = 0) || decide (s.keyLen.toNat < s.ctrl.minKeyBytes.toNat)

/-- DEC_FINISH (40 R104). -/
def execDecFinish (s : State) : Host.Outcome State Fault Refusal :=
  if s.status.keyClosed then .next (s.raise .sequence)
  else
    .next { s with
      acc := 0
      nbits := 0
      status := { s.status with
        keyClosed := true
        warnDegenerateKey := s.degenerate
        keyValid := !s.status.errInvalidSecret && !s.status.errKeyOverflow &&
          !(s.ctrl.minkeyEn && s.degenerate) } }

end Sys2Proof.Machine
end

