-- ==== Sys2Proof/Machine/Sha1.lean ====
section
/-!
DEFINITION. SHA-1 and HMAC-SHA1 as 42 R140-R148 give them (the spec marks R141-R148 as general knowledge; log 21).
-/

namespace Sys2Proof.Machine

/-- `ROTL_n(x)` (42 R145). -/
def rotl (n : Nat) (x : Word) : Word := (x <<< n) ||| (x >>> (32 - n))

/-- The hash state H0..H4, and the working variables a..e (42 R144, R147). -/
structure Hash where
  a : Word
  b : Word
  c : Word
  d : Word
  e : Word
  deriving DecidableEq, Repr

/-- The initial hash value (42 R144). -/
def sha1Init : Hash := ⟨0x67452301, 0xEFCDAB89, 0x98BADCFE, 0x10325476, 0xC3D2E1F0⟩

/-- The zero bytes of the padding: the least `k` with `(L + 1 + k) mod 64 = 56` (42 R143). -/
def padZeros (len : Nat) : Nat := (119 - len % 64) % 64

/-- `P = M || 0x80 || 0x00^k || be64(8L)` (42 R143). -/
def sha1Pad (m : List Byte) : List Byte :=
  m ++ [0x80] ++ List.replicate (padZeros m.length) 0 ++ be64 (BitVec.ofNat 64 (8 * m.length))

/-- The first `n` blocks of 64 bytes (42 R143). -/
def blocks64 : Nat → List Byte → List (List Byte)
  | 0, _ => []
  | n + 1, l => l.take 64 :: blocks64 n (l.drop 64)

/-- The 32-bit words of a byte list, big-endian (42 R143). -/
def wordsOf : List Byte → List Word
  | b0 :: b1 :: b2 :: b3 :: rest => (b0 ++ b1 ++ b2 ++ b3) :: wordsOf rest
  | _ => []

/-- `n` more words of the message schedule, the latest word first:
`W[t] = ROTL_1(W[t-3] ^ W[t-8] ^ W[t-14] ^ W[t-16])` (42 R145). -/
def extendSchedule : Nat → List Word → List Word
  | 0, w => w
  | n + 1, w => extendSchedule n (rotl 1 (w.getD 2 0 ^^^ w.getD 7 0 ^^^ w.getD 13 0 ^^^ w.getD 15 0) :: w)

/-- `W[0..79]` of one block (42 R145). -/
def schedule (block : List Byte) : List Word := (extendSchedule 64 (wordsOf block).reverse).reverse

/-- The round functions `f_t` (42 R146). -/
def roundF (t : Nat) (b c d : Word) : Word :=
  if t < 20 then (b &&& c) ||| (~~~b &&& d)
  else if t < 40 then b ^^^ c ^^^ d
  else if t < 60 then (b &&& c) ||| (b &&& d) ||| (c &&& d)
  else b ^^^ c ^^^ d

/-- The round constants `K_t` (42 R146). -/
def roundK (t : Nat) : Word :=
  if t < 20 then 0x5A827999
  else if t < 40 then 0x6ED9EBA1
  else if t < 60 then 0x8F1BBCDC
  else 0xCA62C1D6

/-- Round `t` (42 R147). -/
def sha1Round (t : Nat) (w : Word) (h : Hash) : Hash :=
  { a := rotl 5 h.a + roundF t h.b h.c h.d + h.e + roundK t + w, b := h.a, c := rotl 30 h.b, d := h.c, e := h.d }

/-- The rounds from `t` on, one per word of the schedule (42 R147). -/
def sha1Rounds : Nat → List Word → Hash → Hash
  | _, [], h => h
  | t, w :: rest, h => sha1Rounds (t + 1) rest (sha1Round t w h)

/-- Compression of one block into the hash state (42 R147). -/
def sha1Compress (h : Hash) (block : List Byte) : Hash :=
  let r := sha1Rounds 0 (schedule block) h
  { a := h.a + r.a, b := h.b + r.b, c := h.c + r.c, d := h.d + r.d, e := h.e + r.e }

/-- `SHA1(M)`, 20 bytes (42 R148). -/
def sha1 (m : List Byte) : List Byte :=
  let p := sha1Pad m
  let h := (blocks64 (p.length / 64) p).foldl sha1Compress sha1Init
  be32 h.a ++ be32 h.b ++ be32 h.c ++ be32 h.d ++ be32 h.e

/-- `prepkey(key)`: a key longer than 64 bytes is hashed; zero bytes fill it to 64 (42 R141). -/
def prepKey (key : List Byte) : List Byte :=
  let key0 := if 64 < key.length then sha1 key else key
  key0 ++ List.replicate (64 - key0.length) 0

/-- `k' xor pad` for a pad of one repeated byte (42 R140, R142). -/
def xorPad (k : List Byte) (b : Byte) : List Byte := k.map (fun x => x ^^^ b)

/-- `HMAC_SHA1(key, msg)` with ipad 0x36 and opad 0x5C (42 R140, R142). -/
def hmacSha1 (key msg : List Byte) : List Byte :=
  let k := prepKey key
  sha1 (xorPad k 0x5C ++ sha1 (xorPad k 0x36 ++ msg))

end Sys2Proof.Machine
end

