-- ==== Sys2Proof/Machine/Totp.lean ====
section
/-!
DEFINITION. TOTP_GENERATE: the eight steps of 41 R122-R127 and their composition (41 R120, R121, R128, R129).
-/

namespace Sys2Proof.Machine

/-- `counter = floor(now / ts)` (41 R122). -/
def totpCounter (now : DWord) (ts : Word) : DWord := BitVec.ofNat 64 (now.toNat / ts.toNat)

/-- `digest = HMAC_SHA1(key, be64(counter))` (41 R123, R124). -/
def totpDigest (key : List Byte) (counter : DWord) : List Byte := hmacSha1 key (be64 counter)

/-- `offset = digest[19] & 0x0F` (41 R124). -/
def truncOffset (digest : List Byte) : BitVec 4 := (byteAt digest 19).extractLsb' 0 4

/-- The 31-bit code: the four bytes from `offset` on, big-endian, the top bit cleared (41 R124). -/
def truncCode (digest : List Byte) : BitVec 31 :=
  let o := (truncOffset digest).toNat
  (byteAt digest o).extractLsb' 0 7 ++ byteAt digest (o + 1) ++ byteAt digest (o + 2) ++ byteAt digest (o + 3)

/-- `trunc = code mod 10^dg`, computed in naturals (41 R125). -/
def reduceCode (code : BitVec 31) (dg : Nat) : Nat := code.toNat % 10 ^ dg

/-- `dec(n, w)`: the decimal digits of `n` in ASCII, most significant first, exactly `w` characters (41 R125). -/
def dec : Nat → Nat → List Byte
  | _, 0 => []
  | n, w + 1 => dec (n / 10) w ++ [0x30 + BitVec.ofNat 8 (n % 10)]

/-- `rem = ts - (now mod ts)` (41 R127). -/
def secondsRemaining (now : DWord) (ts : Word) : Word := BitVec.ofNat 32 (ts.toNat - now.toNat % ts.toNat)

/-- DIGEST0..4 of a digest (10 R38). -/
def digestWords (d : List Byte) : DigestWords :=
  { d0 := packWord (byteAt d) 0, d1 := packWord (byteAt d) 1, d2 := packWord (byteAt d) 2,
    d3 := packWord (byteAt d) 3, d4 := packWord (byteAt d) 4 }

/-- CODE_STR0..2 of a string: its characters first, 0x00 after them (41 R126, 10 R39). -/
def codeStrWords (str : List Byte) : CodeStr :=
  { c0 := packWord (byteAt str) 0, c1 := packWord (byteAt str) 1, c2 := packWord (byteAt str) 2 }

/-- The outputs of one TOTP_GENERATE, a function of the key, the time, TIMESTEP and DIGITS alone (41 R120, R130). -/
def totpResults (key : List Byte) (now : DWord) (ts dg : Word) : Results :=
  let counter := totpCounter now ts
  let digest := totpDigest key counter
  let code := truncCode digest
  let trunc := reduceCode code dg.toNat
  { counter := counter
    offset := truncOffset digest
    code31 := code
    codeBin := BitVec.ofNat 32 trunc
    remaining := secondsRemaining now ts
    digest := digestWords digest
    codeStr := codeStrWords (dec trunc dg.toNat) }

/-- TOTP_GENERATE (41 R120): the key precondition first (41 R121), then the digest draw (41 R129), then the commit
(41 R128). -/
def execTotpGenerate (s : State) : Host.Outcome State Fault Refusal :=
  if s.status.keyValid then
    match s.drawDigest with
    | (true, s1) => .next (s1.fail .digest)
    | (false, s1) => .next (s1.commit (totpResults s.key s.now s.timeStep s.digits))
  else .next (s.fail .noKey)

end Sys2Proof.Machine
end

