-- ==== Sys2Proof/Machine/Dispatch.lean ====
section
/-!
DEFINITION. What each command does: one arm per row of the opcode table, one direct call of its meaning.
-/

namespace Sys2Proof.Machine

def exec (i : Instr) (s : State) : Host.Outcome State Fault Refusal :=
  match i with
  | .decClear => Sys2Proof.Machine.execDecClear s
  | .decPush c => Sys2Proof.Machine.execDecPush c s
  | .decFinish => Sys2Proof.Machine.execDecFinish s
  | .totpGenerate => Sys2Proof.Machine.execTotpGenerate s
  | .softReset => Sys2Proof.Machine.execSoftReset s

end Sys2Proof.Machine
end

