-- ==== Sys2Proof/Machine/Window.lean ====
section
/-!
DEFINITION. The register window: what a host read returns (10 R23-R40, 20 R62) and what a host write does (10 R23-R29,
R45, 43 R160).
-/

namespace Sys2Proof.Machine

/-- `kb(i)`: the key byte a KEY word shows (10 R40). -/
def State.shownKeyByte (s : State) (i : Nat) : Byte := if i < s.keyLen.toNat then s.keybuf.read i else 0

/-- PARAMS: KEY_MAX_BYTES in bits 8:0, KEY_READABLE in bit 16, DIGEST_FAULT_POSSIBLE in bit 17 (10 R37). -/
def Params.toWord (p : Params) : Word :=
  0#14 ++ BitVec.ofBool p.digestFaultPossible ++ BitVec.ofBool p.keyReadable ++ 0#7 ++ BitVec.ofNat 9 p.keyMaxBytes

/-- The value of a register (10 R23-R40). -/
def readReg (s : State) : Reg → Word
  | .ctrl => s.ctrl.toWord
  | .status => s.status.toWord
  | .cmd => 0
  | .timeStep => s.timeStep
  | .digits => s.digits
  | .nowLo => s.nowLo
  | .nowHi => s.nowHi
  | .keyLen => s.keyLen.setWidth 32
  | .decAcc => 0#21 ++ s.nbits ++ 0#1 ++ s.acc
  | .counterLo => s.results.counter.extractLsb' 0 32
  | .counterHi => s.results.counter.extractLsb' 32 32
  | .offset => s.results.offset.setWidth 32
  | .code31 => s.results.code31.setWidth 32
  | .codeBin => s.results.codeBin
  | .remaining => s.results.remaining
  | .params => Params.toWord s.params
  | .digest 0 => s.results.digest.d0
  | .digest 1 => s.results.digest.d1
  | .digest 2 => s.results.digest.d2
  | .digest 3 => s.results.digest.d3
  | .digest 4 => s.results.digest.d4
  | .codeStr 0 => s.results.codeStr.c0
  | .codeStr 1 => s.results.codeStr.c1
  | .codeStr 2 => s.results.codeStr.c2
  | .key w => if s.params.keyReadable then packWord s.shownKeyByte w.val else 0

/-- `MemRead(BASE + a, 4)` (20 R62): the register at the offset, 0 at a reserved offset (20 R64). -/
def readOffset (s : State) (a : Nat) : Word :=
  match regAt a with
  | some r => readReg s r
  | none => 0

/-- A configuration write, discarded with ERR_BUSY while BUSY = 1 (10 R45). -/
def State.unlessBusy (s : State) (f : State → State) : State := if s.status.busy then s.raise .busy else f s

/-- A write to TIMESTEP while BUSY = 0 (10 R26). -/
def writeTimeStep (v : Word) (s : State) : State := if v = 0 then s.raise .config else { s with timeStep := v }

/-- A write to DIGITS while BUSY = 0 (10 R27). -/
def writeDigits (v : Word) (s : State) : State :=
  if 1 ≤ v ∧ v ≤ 10 then { s with digits := v } else s.raise .config

/-- A write to CMD, in the order of tests of 43 R160: SOFT_RESET, then BUSY, then legality, then acceptance. -/
def writeCmd (w : Word) (s : State) : Host.Outcome State Fault Refusal :=
  if w = 0x000000FF then exec .softReset s
  else if s.status.busy then .next (s.raise .busy)
  else
    match decode w with
    | .illegal _ => .next (s.raise .cmd)
    | .instr _ => .next (s.accept w)

/-- A write to a register: 10 R23, R25-R29, R45 for the writable ones; the read-only ones ignore it (10 R20, R45). -/
def writeReg (r : Reg) (v : Word) (s : State) : Host.Outcome State Fault Refusal :=
  match r with
  | .ctrl => .next (s.unlessBusy fun s => { s with ctrl := Ctrl.ofWord v })
  | .status => .next { s with status := s.status.clearBy v }
  | .cmd => writeCmd v s
  | .timeStep => .next (s.unlessBusy (writeTimeStep v))
  | .digits => .next (s.unlessBusy (writeDigits v))
  | .nowLo => .next (s.unlessBusy fun s => { s with nowLo := v })
  | .nowHi => .next (s.unlessBusy fun s => { s with nowHi := v })
  | .keyLen => .next s
  | .decAcc => .next s
  | .counterLo => .next s
  | .counterHi => .next s
  | .offset => .next s
  | .code31 => .next s
  | .codeBin => .next s
  | .remaining => .next s
  | .params => .next s
  | .digest _ => .next s
  | .codeStr _ => .next s
  | .key _ => .next s

/-- `MemWrite(BASE + a, 4, v)` (20 R62): a reserved offset ignores it (20 R64). -/
def writeOffset (a : Nat) (v : Word) (s : State) : Host.Outcome State Fault Refusal :=
  match regAt a with
  | some r => writeReg r v s
  | none => .next s

end Sys2Proof.Machine
end

