-- ==== Sys2Proof/Machine/Agents.lean ====
section
/-!
DEFINITION. The steps of the two agents (00 R12): a host statement (30 R86), the block's performance of the pending
command (43 R161), whose turn it is (70 R198), and how a command is placed where the next step performs it.
-/

namespace Sys2Proof.Machine

/-- The platform's reset of the block: the same event as SOFT_RESET (70 R191). -/
def platformReset (s : State) : State := s.softReset

/-- A host access, sent on with its offset when it is an aligned 32-bit access to the window (20 R60, R61). -/
def withAccess (acc : Access) (s : State) (k : Nat → Host.Outcome State Fault Refusal) :
    Host.Outcome State Fault Refusal :=
  match acc.target s.params with
  | .register a => k a
  | .unsupported => .fault (.busAccessUnsupported acc)
  | .outside => .refused (.addressOutsideWindow acc)

/-- The host continues at label `l` when `taken`, else at the next statement (30 R86). -/
def branch (taken : Bool) (l : Nat) (s : State) : Host.Outcome State Fault Refusal :=
  if taken then
    match labelIndex s.host.program l with
    | some i => .next (s.goto i)
    | none => .refused (.undefinedLabel l)
  else .next s

/-- Run one host statement; `s` is the state whose host is already at the following statement (30 R86). -/
def runStmt (st : HostStmt) (s : State) : Host.Outcome State Fault Refusal :=
  match st with
  | .wr acc v => withAccess acc s fun a => writeOffset a v s
  | .rd acc t => withAccess acc s fun a => .next (s.assign t (readOffset s a))
  | .label _ => .next s
  | .bnz t m l => branch (getVariable s.host.vars t &&& m != 0) l s
  | .bz t m l => branch (getVariable s.host.vars t &&& m == 0) l s
  | .platformReset => .next (platformReset s)

/-- The host's step; a host whose program has ended makes no access and the block is idle (60 R183; log 17). -/
def hostStep (s : State) : Host.Outcome State Fault Refusal :=
  match s.hostStmt with
  | none => .next s
  | some st => runStmt st s.hostTick

/-- The end of a performance: PENDING and BUSY are cleared in the same step (43 R161). -/
def retireOutcome : Host.Outcome State Fault Refusal → Host.Outcome State Fault Refusal
  | .next s => .next s.retire
  | .fault f => .fault f
  | .refused r => .refused r

/-- The block's step, for the command in PENDING (43 R161). -/
def performPending (s : State) : Host.Outcome State Fault Refusal :=
  match s.pending with
  | none => .next s
  | some w =>
    match decode w with
    | .instr i => if pendable i then retireOutcome (exec i s) else .refused (.pendingNotPerformable w)
    | .illegal _ => .refused (.pendingNotPerformable w)

/-- Whether the block steps next: a command is pending, and its latency has run out or the host has no statement
left (43 R161, 70 R198; log 5). -/
def State.blockTurn (s : State) : Bool := s.pending.isSome && (decide (s.delay = 0) || s.hostStmt.isNone)

/-- One step of the machine: the block's or the host's, never both (60 R173, 00 R12). -/
def stepAgents (s : State) : Host.Outcome State Fault Refusal :=
  if s.blockTurn then performPending s else hostStep s

/-- A host statement put before the one the host runs next. -/
def State.insertStmt (st : HostStmt) (s : State) : State :=
  { s with
    host := { s.host with
      program := s.host.program.take s.host.pc ++ st :: s.host.program.drop s.host.pc
      pc := min s.host.pc s.host.program.length } }

/-- Make the host's write of `w` to CMD its next statement and its turn: a pending command waits for that one step. -/
def State.placeWrite (w : Word) (s : State) : State :=
  { s.insertStmt (.wr (regAccess s.params .cmd) w) with
    delay := if s.pending.isSome then s.delay + 1 else s.delay }

/-- Place a word where the very next step runs it (log 4). A command that can be pending stands accepted in PENDING,
its latency run out. Any other word is met only in the host's write to CMD (43 R160), so that write becomes the host's
next statement. -/
def placeFetchWord (s : State) (w : Word) : State :=
  match decode w with
  | .instr i => if pendable i then s.place w 0 else s.placeWrite w
  | .illegal _ => s.placeWrite w

end Sys2Proof.Machine
end

