-- ==== Sys2Proof/Machine/Step.lean ====
section
/-!
DEFINITION. One step of the machine, and the placing of a word where the next step runs it.
-/

namespace Sys2Proof.Machine

/-- One step (00 R12). -/
def step (s : State) : Host.Outcome State Fault Refusal := stepAgents s

/-- `s` with the command word `w` (of `nbits` bits, the bits above them 0) where the next step runs it (log 4). -/
def State.withFetchWord (s : State) (nbits w : Nat) : State := placeFetchWord s (BitVec.ofNat 32 (w % 2 ^ nbits))

end Sys2Proof.Machine
end

