-- ==== Sys2Proof/Machine/Base32.lean ====
section
/-!
DEFINITION. The source's one-call Base32 decoding, the four steps quoted at the head of spec 40_base32_decoder.md: the
algorithm that 40 R105 says the block's commands agree with. No instruction uses it.
-/

namespace Sys2Proof.Machine

/-- Steps 1 and 2: the values of the characters in the alphabet, in order; the others are removed (40 R105). -/
def symbolValues (cs : List Byte) : List (BitVec 5) := cs.filterMap classify

/-- The 5 bits of a symbol, most significant first (step 2). -/
def symbolBits (v : BitVec 5) : List Bool :=
  [v.getLsbD 4, v.getLsbD 3, v.getLsbD 2, v.getLsbD 1, v.getLsbD 0]

/-- The byte of 8 bits, most significant first (step 3). -/
def byteOfBits (b7 b6 b5 b4 b3 b2 b1 b0 : Bool) : Byte :=
  BitVec.ofBool b7 ++ BitVec.ofBool b6 ++ BitVec.ofBool b5 ++ BitVec.ofBool b4 ++
    BitVec.ofBool b3 ++ BitVec.ofBool b2 ++ BitVec.ofBool b1 ++ BitVec.ofBool b0

/-- Consecutive 8-bit groups; leftover bits shorter than 8 are dropped (step 3). -/
def sliceBytes : List Bool → List Byte
  | b7 :: b6 :: b5 :: b4 :: b3 :: b2 :: b1 :: b0 :: rest =>
    byteOfBits b7 b6 b5 b4 b3 b2 b1 b0 :: sliceBytes rest
  | _ => []

/-- `decode(s')`: the bytes of a secret (step 4). -/
def decodeSecret (cs : List Byte) : List Byte := sliceBytes ((symbolValues cs).flatMap symbolBits)

end Sys2Proof.Machine
end

