-- ==== Sys2Proof/Machine/HostPseudo.lean ====
section
/-!
DEFINITION. The host's statements by register name and the pseudo-statements with their exact expansions (30 R86,
R87). `t` is the host variable WAIT uses and `l` the first fresh label.
-/

namespace Sys2Proof.Machine

/-- `WR REG, v` (30 R86). -/
def wrReg (p : Params) (r : Reg) (v : Word) : HostStmt := .wr (regAccess p r) v

/-- `RD REG -> t` (30 R86). -/
def rdReg (p : Params) (r : Reg) (t : Nat) : HostStmt := .rd (regAccess p r) t

/-- `CMD ...` (30 R86). -/
def cmdStmt (p : Params) (i : Instr) : HostStmt := wrReg p .cmd (encode i)

/-- `WAIT`: loop until BUSY = 0 (30 R87). -/
def waitStmts (p : Params) (t l : Nat) : List HostStmt := [.label l, rdReg p .status t, .bnz t 0x1 l]

/-- `SETNOW n` (30 R87). -/
def setNowStmts (p : Params) (n : DWord) : List HostStmt :=
  [wrReg p .nowLo (n.extractLsb' 0 32), wrReg p .nowHi (n.extractLsb' 32 32)]

/-- `PUSHSTR "s"`, one label per character (30 R87). -/
def pushStrStmts (p : Params) (t : Nat) : Nat → List Byte → List HostStmt
  | _, [] => []
  | l, c :: rest => cmdStmt p (.decPush c) :: waitStmts p t l ++ pushStrStmts p t (l + 1) rest

/-- `LOADKEY "s"` (30 R87). -/
def loadKeyStmts (p : Params) (t l : Nat) (cs : List Byte) : List HostStmt :=
  cmdStmt p .decClear :: waitStmts p t l ++ pushStrStmts p t (l + 1) cs ++
    (cmdStmt p .decFinish :: waitStmts p t (l + 1 + cs.length))

/-- `GEN n` (30 R87). -/
def genStmts (p : Params) (t l : Nat) (n : DWord) : List HostStmt :=
  setNowStmts p n ++ (cmdStmt p .totpGenerate :: waitStmts p t l)

end Sys2Proof.Machine
end

