-- ==== Sys2Proof/WellFormed.lean ====
section
/-!
DEFINITION. The well-formedness checks: of a command, of the parameters (00 R6) and of a host program (30 R86).
-/

namespace Sys2Proof

/-- Every command is well formed: DEC_PUSH's operand is any 8-bit code (30 R81, R82), and its type says so. -/
def Instr.wf : Instr → Bool
  | .decClear => true
  | .decPush _ => true
  | .decFinish => true
  | .totpGenerate => true
  | .softReset => true

/-- The legal values of the parameters (00 R6). -/
def Params.wf (p : Params) : Bool :=
  p.base % 0x200 == 0 && decide (1 ≤ p.keyMaxBytes) && decide (p.keyMaxBytes ≤ 256)

namespace Machine

/-- The labels of a host program, in order. -/
def programLabels : List HostStmt → List Nat
  | [] => []
  | .label l :: rest => l :: programLabels rest
  | .wr _ _ :: rest => programLabels rest
  | .rd _ _ :: rest => programLabels rest
  | .bnz _ _ _ :: rest => programLabels rest
  | .bz _ _ _ :: rest => programLabels rest
  | .platformReset :: rest => programLabels rest

/-- The label a statement may continue at. -/
def HostStmt.target? : HostStmt → Option Nat
  | .wr _ _ => none
  | .rd _ _ => none
  | .label _ => none
  | .bnz _ _ l => some l
  | .bz _ _ l => some l
  | .platformReset => none

/-- A host program defines no label twice and every label it branches to (30 R86, R87: "each label is fresh"). -/
def programWf (p : List HostStmt) : Bool :=
  decide (programLabels p).Nodup &&
    p.all fun st => match st.target? with
      | none => true
      | some l => (programLabels p).contains l

end Machine
end Sys2Proof
end

