-- ==== Sys2Proof/Safety.lean ====
section
/-!
DEFINITION. The terms the statements use: the invariant of the machine, what a step may leave unchanged, the
performance of a list of commands, and a safe outcome.
-/

namespace Sys2Proof.Machine

/-- Result registers that hold the outputs of one TOTP_GENERATE, from one legal choice of its inputs (10 R43). -/
def Results.generated (maxBytes : Nat) (r : Results) : Prop :=
  ∃ (key : List Byte) (now : DWord) (ts dg : Word),
    key.length ≤ maxBytes ∧ 1 ≤ ts.toNat ∧ 1 ≤ dg.toNat ∧ dg.toNat ≤ 10 ∧ r = totpResults key now ts dg

/-- What every reachable state satisfies. -/
structure Inv (s : State) : Prop where
  /-- The parameters have legal values (00 R6). -/
  params_legal : s.params.wf = true
  /-- `KEY_LEN <= KEY_MAX_BYTES` (10 R30). -/
  keyLen_le : s.keyLen.toNat ≤ s.params.keyMaxBytes
  /-- KEYBUF is in canonical form. -/
  keybuf_wf : s.keybuf.wf = true
  /-- `KEYBUF[i] = 0` for every `i >= KEY_LEN` (10 R41). -/
  keybuf_tail : ∀ i, s.keyLen.toNat ≤ i → s.keybuf.read i = 0
  /-- `ACC < 2^NBITS` (10 R31). -/
  acc_lt : s.acc.toNat < 2 ^ s.nbits.toNat
  /-- A closed decoder has no pending bits (40 R104). -/
  closed_empty : s.status.keyClosed = true → s.nbits = 0
  /-- Only a closed decoder has a valid key or the short-key warning (40 R100, R104). -/
  open_plain : s.status.keyClosed = false → s.status.keyValid = false ∧ s.status.warnDegenerateKey = false
  /-- A valid key had no rejected character and no overflow (40 R104). -/
  valid_clean : s.status.keyValid = true → s.status.errInvalidSecret = false ∧ s.status.errKeyOverflow = false
  /-- Legal TIMESTEP (10 R26). -/
  timeStep_pos : 1 ≤ s.timeStep.toNat
  /-- Legal DIGITS (10 R27). -/
  digits_legal : 1 ≤ s.digits.toNat ∧ s.digits.toNat ≤ 10
  /-- `BUSY = 1` exactly when PENDING is not none (10 R42). -/
  busy_iff : s.status.busy = s.pending.isSome
  /-- PENDING holds a legal word that can be pending (10 R42, 43 R160). -/
  pending_legal : ∀ w, s.pending = some w → ∃ i, decode w = .instr i ∧ pendable i = true
  /-- RESULT_VALID is 0 while a TOTP_GENERATE is pending (43 R160). -/
  generate_invalid : s.pending = some 0x00000010 → s.status.resultValid = false
  /-- The result registers are zero or one performance's outputs (10 R43). -/
  results_whole : s.results = Results.zero ∨ s.results.generated s.params.keyMaxBytes
  /-- With RESULT_VALID = 1 they are one performance's outputs (10 R43). -/
  results_valid : s.status.resultValid = true → s.results.generated s.params.keyMaxBytes
  /-- Nothing is waited for when nothing is pending. -/
  idle_delay : s.pending = none → s.delay = 0

/-- CTRL, TIMESTEP, DIGITS and NOW are the same: the configuration and the timestamp. -/
def SameConfig (s t : State) : Prop :=
  t.ctrl = s.ctrl ∧ t.timeStep = s.timeStep ∧ t.digits = s.digits ∧ t.nowLo = s.nowLo ∧ t.nowHi = s.nowHi

/-- ACC, NBITS, KEY_LEN and every byte of KEYBUF are the same. -/
def SameKeyData (s t : State) : Prop :=
  t.acc = s.acc ∧ t.nbits = s.nbits ∧ t.keyLen = s.keyLen ∧ ∀ i, t.keybuf.read i = s.keybuf.read i

/-- The parameters, PENDING and the host's side are the same: what no performance of a command touches. -/
def SameSurroundings (s t : State) : Prop :=
  t.params = s.params ∧ t.pending = s.pending ∧ t.delay = s.delay ∧ t.host = s.host

/-- The decoder right after DEC_CLEAR (40 R100) or reset (70 R192): OPEN and empty. -/
def OpenEmpty (s : State) : Prop :=
  s.acc = 0 ∧ s.nbits = 0 ∧ s.keyLen = 0 ∧ s.keybuf = [] ∧ s.status.keyClosed = false ∧ s.status.keyValid = false ∧
    s.status.errInvalidSecret = false ∧ s.status.warnCharSkipped = false ∧ s.status.errKeyOverflow = false ∧
    s.status.warnDegenerateKey = false

/-- The commands of a list performed one after another, each before the next (43 R161). -/
def performAll : List Instr → State → Host.Outcome State Fault Refusal
  | [], s => .next s
  | i :: rest, s =>
    match exec i s with
    | .next t => performAll rest t
    | .fault f => .fault f
    | .refused r => .refused r

/-- The commands of a secret after its start: one DEC_PUSH per character, then DEC_FINISH (30 R87). -/
def secretCommands (cs : List Byte) : List Instr := cs.map Instr.decPush ++ [.decFinish]

/-- The result registers of 10 R32-R39. -/
def resultRegs : List Reg :=
  [.counterLo, .counterHi, .offset, .code31, .codeBin, .remaining, .digest 0, .digest 1, .digest 2, .digest 3,
    .digest 4, .codeStr 0, .codeStr 1, .codeStr 2]

/-- The host statement that runs next is a reset of the block: the platform's, or a write of SOFT_RESET (70 R191). -/
def ResetNext (s : State) : Prop :=
  s.hostStmt = some .platformReset ∨ s.hostStmt = some (.wr (regAccess s.params .cmd) 0x000000FF)

/-- A safe outcome: the machine goes on. -/
def goesOn : Host.Outcome State Fault Refusal → Bool
  | .next _ => true
  | .fault _ => false
  | .refused _ => false

end Sys2Proof.Machine
end

