-- ==== Sys2Proof/Certificates/Slice0/Obligations.lean ====
section
/-!
DEFINITION. The statements for the provers, from the numbered rules of spec/. `exec` answers with `Host.Outcome.next`
where an instruction completes; a frame says what the next state shares with the state before.
-/

open Sys2Proof Sys2Proof.Machine

/-! ### Encoding -/

/-- 30 R81, R82: a word decodes to a command exactly when it is that command's word, every value of DEC_PUSH's operand
included. -/
def Obligations.DecodeInvertsEncode : Prop :=
  ∀ (w : Word) (i : Instr), decode w = .instr i ↔ (i.wf = true ∧ w = encode i)

/-- 30 R81: the legal words are those of the table's rows, and exactly one row matches a legal word. -/
def Obligations.LegalWordsMatchExactlyOneRow : Prop :=
  ∀ w : Word,
    ((∃ i, decode w = .instr i) ↔ ∃ r ∈ opcodeTable, r.accepts w = true) ∧
    (∀ r ∈ opcodeTable, ∀ r' ∈ opcodeTable, r.accepts w = true → r'.accepts w = true → r = r') ∧
    (∀ i, decode w = .instr i → ∃ r ∈ opcodeTable, r.accepts w = true ∧ r.mnemonic = i.mnemonic)

/-- 30 R84, 43 R164: which words are illegal, and that a write of one to CMD sets ERR_CMD, or ERR_BUSY while busy, and
nothing else. -/
def Obligations.IllegalWordsSetOneErrorBit : Prop :=
  (∀ w : Word, (∃ why, decode w = .illegal why) ↔
    w.toNat / 2 ^ 16 ≠ 0 ∨ (w.toNat / 2 ^ 8 % 2 ^ 8 ≠ 0 ∧ w.toNat % 2 ^ 8 ≠ 0x02) ∨
      w.toNat % 2 ^ 8 ∉ [0x01, 0x02, 0x03, 0x10, 0xFF]) ∧
  ∀ (w : Word) (s : State), (∃ why, decode w = .illegal why) →
    writeOffset 0x008 w s =
      if s.status.busy = true then .next { s with status := { s.status with errBusy := true } }
      else .next { s with status := { s.status with errCmd := true } }

/-- 30 R80, R81, R84: words written out from the encodings, and three illegal ones (95 K-1 to K-3). -/
def Obligations.SampleCommandWords : Prop :=
  decode 0x00000001 = .instr .decClear ∧
  decode 0x00004D02 = .instr (.decPush 0x4D) ∧
  decode 0x0000FF02 = .instr (.decPush 0xFF) ∧
  decode 0x00000003 = .instr .decFinish ∧
  decode 0x00000010 = .instr .totpGenerate ∧
  decode 0x000000FF = .instr .softReset ∧
  decode 0x00000000 = .illegal .unknownOpc ∧
  decode 0x00004101 = .illegal .argNonzero ∧
  decode 0x00010002 = .illegal .reservedFieldNonzero

/-! ### The Base32 decoder -/

/-- 40 R102: the value of a character is its place in the alphabet A-Z2-7 after folding 0x61..0x7A to uppercase; a
character with no place there has no value. -/
def Obligations.ClassifyIsAlphabetPosition : Prop :=
  ∀ (c : Byte) (v : BitVec 5),
    let u := if 0x61 ≤ c.toNat ∧ c.toNat ≤ 0x7A then c.toNat - 0x20 else c.toNat
    classify c = some v ↔
      (v.toNat < 26 ∧ u = 0x41 + v.toNat) ∨ (26 ≤ v.toNat ∧ u = 0x32 + (v.toNat - 26))

/-- 40 R100: DEC_CLEAR completes in every state; it empties the decoder, clears STATUS bits 2-7, leaves everything else,
and does nothing right after reset. -/
def Obligations.DecClearEmptiesDecoder : Prop :=
  (∀ s : State, ∃ t, exec .decClear s = .next t ∧
    OpenEmpty t ∧ (∀ i, t.keybuf.read i = 0) ∧ readReg t .keyLen = 0 ∧ readReg t .decAcc = 0 ∧
    t.status.toWord = s.status.toWord &&& 0xFFFFFF03 ∧
    t.results = s.results ∧ SameConfig s t ∧ SameSurroundings s t ∧ t.draws = s.draws) ∧
  ∀ p : Params, exec .decClear (State.resetWith p) = .next (State.resetWith p)

/-- 40 R101, 60 R173 item 3: DEC_PUSH of a character that is not packed completes: CLOSED sets ERR_SEQUENCE alone, and a
character outside the alphabet sets ERR_INVALID_SECRET in strict mode, WARN_CHAR_SKIPPED in lenient mode, alone. -/
def Obligations.DecPushOfUnpackedCharacter : Prop :=
  ∀ (s : State) (c : Byte), s.status.keyClosed = true ∨ classify c = none →
    exec (.decPush c) s =
      if s.status.keyClosed = true then .next { s with status := { s.status with errSequence := true } }
      else if s.ctrl.strict = true then .next { s with status := { s.status with errInvalidSecret := true } }
      else .next { s with status := { s.status with warnCharSkipped := true } }

/-- 40 R103: DEC_PUSH of a character of the alphabet into an open decoder completes: its 5 bits join the pending bits, the
8 oldest form the next key byte or overflow, and nothing else changes. The premises on ACC and KEYBUF are
invariants (10 R31, log 13). -/
def Obligations.DecPushPacksSymbol : Prop :=
  ∀ (s : State) (c : Byte) (v : BitVec 5), s.params.wf = true → s.status.keyClosed = false → classify c = some v →
    s.acc.toNat < 2 ^ s.nbits.toNat → s.keybuf.wf = true →
    ∃ t, exec (.decPush c) s = .next t ∧
      (let bits := s.acc.toNat * 32 + v.toNat
       let n := s.nbits.toNat + 5
       if n < 8 then
         t.acc.toNat = bits ∧ t.nbits.toNat = n ∧ t.keyLen = s.keyLen ∧
           (∀ i, t.keybuf.read i = s.keybuf.read i) ∧ t.status = s.status
       else
         t.acc.toNat = bits % 2 ^ (n - 8) ∧ t.nbits.toNat = n - 8 ∧
           if s.keyLen.toNat < s.params.keyMaxBytes then
             t.keyLen.toNat = s.keyLen.toNat + 1 ∧
               (t.keybuf.read s.keyLen.toNat).toNat = bits / 2 ^ (n - 8) % 2 ^ 8 ∧
               (∀ i, i ≠ s.keyLen.toNat → t.keybuf.read i = s.keybuf.read i) ∧ t.status = s.status
           else
             t.keyLen = s.keyLen ∧ (∀ i, t.keybuf.read i = s.keybuf.read i) ∧
               t.status = { s.status with errKeyOverflow := true }) ∧
      t.acc.toNat < 2 ^ t.nbits.toNat ∧
      t.results = s.results ∧ SameConfig s t ∧ SameSurroundings s t ∧ t.draws = s.draws

/-- 40 R104: DEC_FINISH completes in every state: CLOSED sets ERR_SEQUENCE alone; OPEN drops the pending bits, closes the
decoder and computes WARN_DEGENERATE_KEY and KEY_VALID, and nothing else changes. -/
def Obligations.DecFinishDecidesTheKey : Prop :=
  ∀ s : State, ∃ t, exec .decFinish s = .next t ∧
    if s.status.keyClosed = true then t = { s with status := { s.status with errSequence := true } }
    else
      let deg := s.keyLen.toNat = 0 ∨ s.keyLen.toNat < s.ctrl.minKeyBytes.toNat
      t.acc = 0 ∧ t.nbits = 0 ∧ t.status.keyClosed = true ∧
        (t.status.warnDegenerateKey = true ↔ deg) ∧
        (t.status.keyValid = true ↔
          s.status.errInvalidSecret = false ∧ s.status.errKeyOverflow = false ∧ ¬(s.ctrl.minkeyEn = true ∧ deg)) ∧
        { t.status with
          keyClosed := s.status.keyClosed
          warnDegenerateKey := s.status.warnDegenerateKey
          keyValid := s.status.keyValid } = s.status ∧
        t.keyLen = s.keyLen ∧ (∀ i, t.keybuf.read i = s.keybuf.read i) ∧
        t.results = s.results ∧ SameConfig s t ∧ SameSurroundings s t ∧ t.draws = s.draws

/-- 40 R105: after DEC_CLEAR or reset, one DEC_PUSH per byte of any secret that fits and DEC_FINISH leave in KEYBUF what
the source's four-step algorithm gives; a malformed secret is rejected in strict mode, and lenient mode leaves the key
to the length policy. -/
def Obligations.PushedSecretDecodesLikeTheSource : Prop :=
  ∀ (s : State) (cs : List Byte), s.params.wf = true →
    ((∃ s0, exec .decClear s0 = .next s) ∨ s = State.resetWith s.params) →
    5 * (symbolValues cs).length / 8 ≤ s.params.keyMaxBytes →
    ∃ t, performAll (secretCommands cs) s = .next t ∧
      t.key = decodeSecret cs ∧
      t.keyLen.toNat = 5 * (symbolValues cs).length / 8 ∧
      t.status.keyClosed = true ∧
      (s.ctrl.strict = true → (∃ c ∈ cs, classify c = none) →
        t.status.keyValid = false ∧ t.status.errInvalidSecret = true) ∧
      (s.ctrl.strict = false ∨ (∀ c ∈ cs, classify c ≠ none) →
        (t.status.keyValid = true ↔
          ¬(s.ctrl.minkeyEn = true ∧ (t.keyLen.toNat = 0 ∨ t.keyLen.toNat < s.ctrl.minKeyBytes.toNat)))) ∧
      SameConfig s t ∧ t.results = s.results

/-- 40 R103, R104 with 90 C7: a secret of more bytes than KEY_MAX_BYTES fills the buffer with its first bytes, sets
ERR_KEY_OVERFLOW, and the key is rejected. -/
def Obligations.OverlongSecretIsRejected : Prop :=
  ∀ (s : State) (cs : List Byte), s.params.wf = true →
    ((∃ s0, exec .decClear s0 = .next s) ∨ s = State.resetWith s.params) →
    s.params.keyMaxBytes < 5 * (symbolValues cs).length / 8 →
    ∃ t, performAll (secretCommands cs) s = .next t ∧
      t.key = (decodeSecret cs).take s.params.keyMaxBytes ∧ t.keyLen.toNat = s.params.keyMaxBytes ∧
      t.status.errKeyOverflow = true ∧ t.status.keyClosed = true ∧ t.status.keyValid = false

/-- 40 R106: the decoder's state after DEC_CLEAR, a sequence of characters and DEC_FINISH is a function of that sequence
and CTRL (and the parameters) alone. -/
def Obligations.DecodingIsDeterministic : Prop :=
  ∀ (s1 s2 : State) (cs : List Byte), s1.params = s2.params → s1.ctrl = s2.ctrl →
    ∃ t1 t2, performAll (.decClear :: secretCommands cs) s1 = .next t1 ∧
      performAll (.decClear :: secretCommands cs) s2 = .next t2 ∧
      t1.acc = t2.acc ∧ t1.nbits = t2.nbits ∧ t1.keybuf = t2.keybuf ∧ t1.keyLen = t2.keyLen ∧
      t1.status.toWord &&& 0x000000FC = t2.status.toWord &&& 0x000000FC

/-! ### The TOTP engine -/

/-- 41 R121: TOTP_GENERATE without a valid key completes with ERR_NO_KEY: every result register is zero, RESULT_VALID
is 0, no draw is taken and nothing else changes. -/
def Obligations.TotpWithoutValidKeyFails : Prop :=
  ∀ s : State, s.status.keyValid = false →
    ∃ t, exec .totpGenerate s = .next t ∧
      t.status = { s.status with errNoKey := true, resultValid := false } ∧
      t.results = Results.zero ∧ (∀ r ∈ resultRegs, readReg t r = 0) ∧
      SameKeyData s t ∧ SameConfig s t ∧ SameSurroundings s t ∧ t.draws = s.draws

/-- 41 R120, R122-R128: TOTP_GENERATE with a valid key, where the digest cannot fail, completes with the eight steps'
values in the result registers and RESULT_VALID = 1, and nothing else changes. -/
def Obligations.TotpGenerateCommitsTheCode : Prop :=
  ∀ s : State, s.status.keyValid = true → s.params.digestFaultPossible = false → 1 ≤ s.timeStep.toNat →
    ∃ t, exec .totpGenerate s = .next t ∧
      (let now := s.nowHi.toNat * 2 ^ 32 + s.nowLo.toNat
       let ts := s.timeStep.toNat
       let dg := s.digits.toNat
       let digest := hmacSha1 s.key (be64 (BitVec.ofNat 64 (now / ts)))
       let byte := fun i => (byteAt digest i).toNat
       let o := byte 19 % 16
       let code := byte o % 128 * 2 ^ 24 + byte (o + 1) * 2 ^ 16 + byte (o + 2) * 2 ^ 8 + byte (o + 3)
       (readReg t .counterHi).toNat * 2 ^ 32 + (readReg t .counterLo).toNat = now / ts ∧
       (readReg t .offset).toNat = o ∧
       (readReg t .code31).toNat = code ∧
       (readReg t .codeBin).toNat = code % 10 ^ dg ∧
       (readReg t .remaining).toNat = ts - now % ts ∧
       (∀ k : Fin 5, (readReg t (.digest k)).toNat =
         byte (4 * k.val) * 2 ^ 24 + byte (4 * k.val + 1) * 2 ^ 16 + byte (4 * k.val + 2) * 2 ^ 8 +
           byte (4 * k.val + 3)) ∧
       (∀ w : Fin 3, readReg t (.codeStr w) = packWord (byteAt (dec (code % 10 ^ dg) dg)) w.val)) ∧
      t.status = { s.status with resultValid := true } ∧
      SameKeyData s t ∧ SameConfig s t ∧ SameSurroundings s t ∧ t.draws = s.draws

/-- 41 R129: where DIGEST_FAULT_POSSIBLE is true, TOTP_GENERATE with a valid key takes one draw and completes: a true draw
zeroes the results and sets ERR_DIGEST, a false one commits. It holds for every value of the draw, which is a free
value (log 6). -/
def Obligations.TotpDigestDrawDecides : Prop :=
  ∀ s : State, s.status.keyValid = true → s.params.digestFaultPossible = true →
    ∃ t, exec .totpGenerate s = .next t ∧ t.draws = s.draws + 1 ∧
      (if Config.freeDigestFails s.draws = true then
        t.status = { s.status with errDigest := true, resultValid := false } ∧ t.results = Results.zero
       else
        t.status = { s.status with resultValid := true } ∧
          t.results = totpResults s.key s.now s.timeStep s.digits) ∧
      SameKeyData s t ∧ SameConfig s t ∧ SameSurroundings s t

/-- 41 R122, R127 with 10 R33-R36: the ranges of the committed values, for legal TIMESTEP and DIGITS. -/
def Obligations.CommittedValuesInRange : Prop :=
  ∀ (key : List Byte) (now : DWord) (ts dg : Word), 1 ≤ ts.toNat → 1 ≤ dg.toNat → dg.toNat ≤ 10 →
    let r := totpResults key now ts dg
    r.counter.toNat = now.toNat / ts.toNat ∧ (ts.toNat = 1 → r.counter = now) ∧
      r.remaining.toNat = ts.toNat - now.toNat % ts.toNat ∧ 1 ≤ r.remaining.toNat ∧ r.remaining.toNat ≤ ts.toNat ∧
      (now.toNat % ts.toNat = 0 → r.remaining = ts) ∧
      r.offset.toNat + 3 ≤ 18 ∧ r.codeBin.toNat < 10 ^ dg.toNat ∧ r.codeBin.toNat < 2 ^ 31 ∧
      (dg.toNat = 10 → r.codeBin.toNat = r.code31.toNat)

/-- 41 R130 "Same step, same code" and "Window": two performances in one time step commit the same code, and REMAINING
differs by the time between them. -/
def Obligations.SameStepSameCode : Prop :=
  ∀ (key : List Byte) (now1 now2 : DWord) (ts dg : Word), 1 ≤ ts.toNat →
    now1.toNat / ts.toNat = now2.toNat / ts.toNat → now1.toNat ≤ now2.toNat →
    let r1 := totpResults key now1 ts dg
    let r2 := totpResults key now2 ts dg
    r1 = { r2 with remaining := r1.remaining } ∧ r1.remaining.toNat = r2.remaining.toNat + (now2.toNat - now1.toNat)

/-- 41 R130 "Next step": one time step later the counter is one more and REMAINING the same. -/
def Obligations.NextStepCountsOneMore : Prop :=
  ∀ (key : List Byte) (now : DWord) (ts dg : Word), 1 ≤ ts.toNat → now.toNat + ts.toNat < 2 ^ 64 →
    let r := totpResults key now ts dg
    let r' := totpResults key (now + ts.setWidth 64) ts dg
    r'.counter.toNat = r.counter.toNat + 1 ∧ r'.remaining = r.remaining

/-- 41 R125: `dec(n, w)` has exactly `w` characters, each a decimal digit, and reads as `n` when `n < 10^w`. -/
def Obligations.DecIsTheDecimalString : Prop :=
  ∀ n w : Nat, (dec n w).length = w ∧ (∀ c ∈ dec n w, 0x30 ≤ c.toNat ∧ c.toNat ≤ 0x39) ∧
    (n < 10 ^ w → (dec n w).foldl (fun a c => 10 * a + (c.toNat - 0x30)) 0 = n)

/-- 41 R126, 10 R39: the characters of the code are bytes 0 to DIGITS-1 of CODE_STR0..2, digits all, and the bytes after
them are 0x00. -/
def Obligations.CodeStringPlacement : Prop :=
  ∀ (key : List Byte) (now : DWord) (ts dg : Word) (i : Nat), dg.toNat ≤ 10 → i < 12 →
    let r := totpResults key now ts dg
    let str := dec r.codeBin.toNat dg.toNat
    let shown := (r.codeStr.c0 ++ r.codeStr.c1 ++ r.codeStr.c2).toNat / 2 ^ (88 - 8 * i) % 2 ^ 8
    (i < dg.toNat → shown = (byteAt str i).toNat ∧ 0x30 ≤ shown ∧ shown ≤ 0x39) ∧ (dg.toNat ≤ i → shown = 0)

/-- 41 R123: the counter message is 8 bytes, byte `k` bits 63-8k to 56-8k of the counter. -/
def Obligations.CounterMessageIsBigEndian : Prop :=
  ∀ x : DWord, (be64 x).length = 8 ∧
    (∀ k, k < 8 → (byteAt (be64 x) k).toNat = x.toNat / 2 ^ (56 - 8 * k) % 2 ^ 8) ∧
    (be64 x).foldl (fun a b => 256 * a + b.toNat) 0 = x.toNat

/-- 95 V-H1, V-H2, V-H4 and the truncation example of part 2: known answers of SHA-1, HMAC-SHA1 and the dynamic
truncation (42 R148, R140; 41 R124). -/
def Obligations.HashKnownAnswers : Prop :=
  sha1 [] = be32 0xda39a3ee ++ be32 0x5e6b4b0d ++ be32 0x3255bfef ++ be32 0x95601890 ++ be32 0xafd80709 ∧
  sha1 [0x61, 0x62, 0x63] = be32 0xa9993e36 ++ be32 0x4706816a ++ be32 0xba3e2571 ++ be32 0x7850c26c ++
    be32 0x9cd0d89d ∧
  hmacSha1 [0x31, 0x32, 0x33, 0x34, 0x35, 0x36, 0x37, 0x38, 0x39, 0x30,
      0x31, 0x32, 0x33, 0x34, 0x35, 0x36, 0x37, 0x38, 0x39, 0x30] (be64 1) =
    be32 0x75a48a19 ++ be32 0xd4cbe100 ++ be32 0x644e8ac1 ++ be32 0x397eea74 ++ be32 0x7a2d33ab ∧
  truncCode (be32 0x1f869869 ++ be32 0x0e02ca16 ++ be32 0x618550ef ++ be32 0x7f19da8e ++ be32 0x945b555a) = 0x50EF7F19

/-- 42 R143: the padded message is the message, 0x80, a run of zero bytes and the message's bit length in 8 bytes; the run is
the least that fits, and the length is a multiple of 64. -/
def Obligations.Sha1PaddingShape : Prop :=
  ∀ m : List Byte, ∃ k,
    sha1Pad m = m ++ [0x80] ++ List.replicate k 0 ++ be64 (BitVec.ofNat 64 (8 * m.length)) ∧
      (m.length + 1 + k) % 64 = 56 ∧ (∀ j, (m.length + 1 + j) % 64 = 56 → k ≤ j) ∧ (sha1Pad m).length % 64 = 0

/-- 42 R141, R148, R149: the key is used as it is up to 64 bytes and hashed beyond, and zero bytes fill it to 64; the
digests have 20 bytes; the inner and outer messages pad to 2 blocks. -/
def Obligations.HmacKeyAndBlockSizes : Prop :=
  ∀ (key msg : List Byte),
    (prepKey key).length = 64 ∧
      (key.length ≤ 64 → prepKey key = key ++ List.replicate (64 - key.length) 0) ∧
      (64 < key.length → prepKey key = sha1 key ++ List.replicate 44 0) ∧
      (sha1 msg).length = 20 ∧ (hmacSha1 key msg).length = 20 ∧
      (msg.length = 8 ∨ msg.length = 20 → ∀ b, (sha1Pad (xorPad (prepKey key) b ++ msg)).length = 128)

/-! ### Reset, acceptance and performance -/

/-- 43 R163: SOFT_RESET completes in every state, busy or not: every register reads as after reset, KEYBUF is zero, nothing
is pending, every STATUS bit is 0; the host's own state and the parameters stay; twice is as once; and a host write of
its word is it. -/
def Obligations.SoftResetRestoresReset : Prop :=
  ∀ s : State,
    writeOffset 0x008 0x000000FF s = exec .softReset s ∧
    ∃ t, exec .softReset s = .next t ∧
      (∀ r, readReg t r = readReg (State.resetWith s.params) r) ∧
      (∀ i, t.keybuf.read i = 0) ∧ t.pending = none ∧ t.status.toWord = 0 ∧
      readReg t .ctrl = 0x00000A01 ∧ readReg t .timeStep = 30 ∧ readReg t .digits = 6 ∧
      t.params = s.params ∧ t.host = s.host ∧ exec .softReset t = .next t

/-- 70 R190, 10 R20: what reset leaves in every register, KEYBUF and PENDING, for every choice of parameters, PARAMS being
its constant; with the defaults PARAMS reads 0x00010040. -/
def Obligations.ResetRegisterValues : Prop :=
  (∀ (p : Params) (r : Reg), readReg (State.resetWith p) r =
    match r with
    | .ctrl => 0x00000A01
    | .timeStep => 30
    | .digits => 6
    | .params => Params.toWord p
    | _ => 0) ∧
  (∀ p : Params, (State.resetWith p).pending = none ∧ (State.resetWith p).params = p ∧
    ∀ i, (State.resetWith p).keybuf.read i = 0) ∧
  readReg State.reset .params = 0x00010040

/-- 70 R191: the platform's reset has the effect of SOFT_RESET, and as a host statement it is one step. -/
def Obligations.PlatformResetIsSoftReset : Prop :=
  (∀ s : State, exec .softReset s = .next (platformReset s)) ∧
  ∀ s : State, s.blockTurn = false → s.hostStmt = some .platformReset → step s = exec .softReset s.hostTick

/-- 43 R160, 60 R173 item 1: a write to CMD: SOFT_RESET first, then BUSY, then legality, then acceptance, which changes
PENDING, BUSY and, for TOTP_GENERATE, RESULT_VALID alone (and the model's own delay and count of draws). -/
def Obligations.CmdWriteOrderOfTests : Prop :=
  ∀ (w : Word) (s : State), ∃ t, writeOffset 0x008 w s = .next t ∧
    if w = 0x000000FF then exec .softReset s = .next t
    else if s.status.busy = true then t = { s with status := { s.status with errBusy := true } }
    else if (∃ r ∈ opcodeTable, r.accepts w = true) then
      t = { s with
        pending := some w
        delay := t.delay
        draws := t.draws
        status := { s.status with
          busy := true
          resultValid := if w = 0x00000010 then false else s.status.resultValid } }
    else t = { s with status := { s.status with errCmd := true } }

/-- 43 R161, R163 and this machine's step: where the block's turn is, the step performs the pending word's command and
then clears PENDING and BUSY; where the host writes the SOFT_RESET word, the step is SOFT_RESET, the host being at its
next statement. -/
def Obligations.StepRunsTheDecodedCommand : Prop :=
  (∀ (s : State) (w : Word) (i : Instr), s.pending = some w → decode w = .instr i → i ≠ .softReset →
    s.delay = 0 ∨ s.hostStmt = none →
    step s =
      match exec i s with
      | .next t => .next { t with pending := none, delay := 0, status := { t.status with busy := false } }
      | .fault f => .fault f
      | .refused r => .refused r) ∧
  ∀ s : State, s.blockTurn = false → s.hostStmt = some (.wr (regAccess s.params .cmd) 0x000000FF) →
    step s = exec .softReset { s with delay := s.delay - 1, host := { s.host with pc := s.host.pc + 1 } }

/-- The model's placing of a command (log 4): the very next step runs it. -/
def Obligations.PlacedCommandRunsNext : Prop :=
  ∀ (s : State) (i : Instr),
    if i = .softReset then
      ∃ u, step (s.withFetchWord 32 (encode i).toNat) = exec i u ∧ SameConfig s u ∧ SameKeyData s u ∧
        u.status = s.status ∧ u.results = s.results ∧ u.params = s.params ∧ u.pending = s.pending
    else
      step (s.withFetchWord 32 (encode i).toNat) =
        retireOutcome (exec i (s.place (encode i) 0))

/-- 43 R161, R45, 41 R128: every command completes in every state, and changes only its own registers. None touches the
parameters or the host; none but SOFT_RESET touches CTRL, TIMESTEP, DIGITS, NOW or PENDING. DEC_CLEAR changes the decoder
and STATUS 7:2; DEC_PUSH changes the decoder, one byte of KEYBUF at most, and STATUS 4, 5, 6, 12; DEC_FINISH changes ACC,
NBITS and STATUS 2, 3, 7, 12; TOTP_GENERATE changes the result registers, the count of draws and STATUS 1, 8, 9. -/
def Obligations.CommandsKeepTheRest : Prop :=
  ∀ (i : Instr) (s : State), ∃ t, exec i s = .next t ∧ t.params = s.params ∧ t.host = s.host ∧
    (i ≠ .softReset → SameConfig s t ∧ SameSurroundings s t) ∧
    (i ≠ .softReset → i ≠ .totpGenerate → t.results = s.results ∧ t.draws = s.draws) ∧
    match i with
    | .decClear =>
      t.status = { s.status with
        keyClosed := t.status.keyClosed
        keyValid := t.status.keyValid
        errInvalidSecret := t.status.errInvalidSecret
        warnCharSkipped := t.status.warnCharSkipped
        errKeyOverflow := t.status.errKeyOverflow
        warnDegenerateKey := t.status.warnDegenerateKey }
    | .decPush _ =>
      (∀ n, n ≠ s.keyLen.toNat → t.keybuf.read n = s.keybuf.read n) ∧
        t.status = { s.status with
          errInvalidSecret := t.status.errInvalidSecret
          warnCharSkipped := t.status.warnCharSkipped
          errKeyOverflow := t.status.errKeyOverflow
          errSequence := t.status.errSequence }
    | .decFinish =>
      t.keyLen = s.keyLen ∧ (∀ n, t.keybuf.read n = s.keybuf.read n) ∧
        t.status = { s.status with
          keyClosed := t.status.keyClosed
          keyValid := t.status.keyValid
          warnDegenerateKey := t.status.warnDegenerateKey
          errSequence := t.status.errSequence }
    | .totpGenerate =>
      SameKeyData s t ∧
        t.status = { s.status with
          resultValid := t.status.resultValid
          errNoKey := t.status.errNoKey
          errDigest := t.status.errDigest }
    | .softReset => True

/-! ### The register window -/

/-- 10 R45, 60 R173: while BUSY = 1 a write to CTRL, TIMESTEP, DIGITS, NOW_LO, NOW_HI or CMD (not SOFT_RESET) sets ERR_BUSY
and changes nothing else, and any other write but STATUS's changes nothing. -/
def Obligations.BusyWritesAreDiscarded : Prop :=
  ∀ (s : State) (a : Nat) (v : Word), s.status.busy = true →
    (a ∈ [0x000, 0x00C, 0x010, 0x014, 0x018] ∨ (a = 0x008 ∧ v ≠ 0x000000FF) →
      writeOffset a v s = .next { s with status := { s.status with errBusy := true } }) ∧
    (a ∉ [0x000, 0x004, 0x008, 0x00C, 0x010, 0x014, 0x018] → writeOffset a v s = .next s)

/-- 10 R25: a write to STATUS clears the bits 13:8 where it writes 1 and does nothing else, busy or not. -/
def Obligations.StatusWriteOneClears : Prop :=
  ∀ (s : State) (v : Word), ∃ t, writeOffset 0x004 v s = .next t ∧
    readReg t .status = readReg s .status &&& ~~~(v &&& 0x00003F00) ∧
    t = { s with status := t.status }

/-- 10 R23: a write to CTRL while BUSY = 0 takes STRICT, MINKEY_EN and MIN_KEY_BYTES from it, ignores the other bits and
changes nothing else; CTRL reads back the fields it took. -/
def Obligations.CtrlWriteTakesThreeFields : Prop :=
  ∀ (s : State) (v : Word), s.status.busy = false → ∃ t, writeOffset 0x000 v s = .next t ∧
    t.ctrl.strict = v.getLsbD 0 ∧ t.ctrl.minkeyEn = v.getLsbD 1 ∧ t.ctrl.minKeyBytes.toNat = v.toNat / 2 ^ 8 % 2 ^ 8 ∧
    readReg t .ctrl = v &&& 0x0000FF03 ∧ t = { s with ctrl := t.ctrl }

/-- 10 R26: TIMESTEP: 30 at reset, read back, a write of 0 refused with ERR_CONFIG, any other taken, while BUSY = 0. -/
def Obligations.TimeStepWrite : Prop :=
  (∀ p, readOffset (State.resetWith p) 0x00C = 30) ∧
  ∀ (s : State) (v : Word), readOffset s 0x00C = s.timeStep ∧
    (s.status.busy = false →
      writeOffset 0x00C v s =
        if v.toNat = 0 then .next { s with status := { s.status with errConfig := true } }
        else .next { s with timeStep := v })

/-- 10 R27: DIGITS: 6 at reset, read back, a write of 1..10 taken, any other refused with ERR_CONFIG, while BUSY = 0. -/
def Obligations.DigitsWrite : Prop :=
  (∀ p, readOffset (State.resetWith p) 0x010 = 6) ∧
  ∀ (s : State) (v : Word), readOffset s 0x010 = s.digits ∧
    (s.status.busy = false →
      writeOffset 0x010 v s =
        if 1 ≤ v.toNat ∧ v.toNat ≤ 10 then .next { s with digits := v }
        else .next { s with status := { s.status with errConfig := true } })

/-- 10 R28, 70 R196: each half of NOW is replaced by a write while BUSY = 0, the other half kept; NOW is NOW_HI over
NOW_LO. -/
def Obligations.NowIsTwoRegisters : Prop :=
  ∀ (s : State) (v : Word),
    s.now.toNat = (readOffset s 0x018).toNat * 2 ^ 32 + (readOffset s 0x014).toNat ∧
    (s.status.busy = false →
      (∃ t, writeOffset 0x014 v s = .next t ∧ readOffset t 0x014 = v ∧ t = { s with nowLo := t.nowLo } ∧
        t.now.toNat = s.now.toNat / 2 ^ 32 * 2 ^ 32 + v.toNat) ∧
      (∃ t, writeOffset 0x018 v s = .next t ∧ readOffset t 0x018 = v ∧ t = { s with nowHi := t.nowHi } ∧
        t.now.toNat = v.toNat * 2 ^ 32 + s.now.toNat % 2 ^ 32))

/-- 20 R64: the reserved offsets 0x060..0x0FC read 0 and ignore writes; every reserved field reads 0; the reserved bits of a
write to CTRL or STATUS are ignored, and so is a write to a read-only register that has reserved fields. -/
def Obligations.ReservedReadsZeroIgnoresWrites : Prop :=
  (∀ (s : State) (a : Nat) (v : Word), 0x060 ≤ a → a ≤ 0x0FC → readOffset s a = 0 ∧ writeOffset a v s = .next s) ∧
  (∀ s : State, readReg s .ctrl &&& 0xFFFF00FC = 0 ∧ readReg s .status &&& 0xFFFFC000 = 0 ∧
    readReg s .keyLen &&& 0xFFFFFE00 = 0 ∧ readReg s .decAcc &&& 0xFFFFF880 = 0 ∧
    readReg s .offset &&& 0xFFFFFFF0 = 0 ∧ readReg s .code31 &&& 0x80000000 = 0 ∧
    readReg s .params &&& 0xFFFCFE00 = 0) ∧
  ∀ (s : State) (v : Word), writeOffset 0x000 v s = writeOffset 0x000 (v &&& 0x0000FF03) s ∧
    writeOffset 0x004 v s = writeOffset 0x004 (v &&& 0x00003F00) s ∧
    ∀ r ∈ [Reg.keyLen, .decAcc, .offset, .code31, .params], writeOffset r.offsetOf v s = .next s

/-- 10 R20, R29, R45: which register stands at which offset of the window, and that a read of the offset reads it; the
read-only registers ignore writes without an error, and CMD reads 0. -/
def Obligations.ReadOnlyRegistersIgnoreWrites : Prop :=
  (∀ (a : Nat) (r : Reg), regAt a = some r ↔ a =
    match r with
    | .ctrl => 0x000
    | .status => 0x004
    | .cmd => 0x008
    | .timeStep => 0x00C
    | .digits => 0x010
    | .nowLo => 0x014
    | .nowHi => 0x018
    | .keyLen => 0x01C
    | .decAcc => 0x020
    | .counterLo => 0x024
    | .counterHi => 0x028
    | .offset => 0x02C
    | .code31 => 0x030
    | .codeBin => 0x034
    | .remaining => 0x038
    | .params => 0x03C
    | .digest k => 0x040 + 4 * k.val
    | .codeStr w => 0x054 + 4 * w.val
    | .key w => 0x100 + 4 * w.val) ∧
  (∀ r : Reg, regAt r.offsetOf = some r ∧ r.offsetOf % 4 = 0 ∧ r.offsetOf < 0x200) ∧
  ∀ (s : State) (r : Reg) (v : Word), readOffset s r.offsetOf = readReg s r ∧ readOffset s 0x008 = 0 ∧
    (r ∉ [.ctrl, .status, .cmd, .timeStep, .digits, .nowLo, .nowHi] → writeOffset r.offsetOf v s = .next s)

/-- 20 R61: on the host's turn, an access to the window of another width or at an offset that is no multiple of 4 faults the
step, naming the access. -/
def Obligations.UnsupportedAccessFaults : Prop :=
  ∀ (s : State) (acc : Access) (v : Word) (t : Nat), s.blockTurn = false →
    s.hostStmt = some (.wr acc v) ∨ s.hostStmt = some (.rd acc t) →
    s.params.base ≤ acc.addr → acc.addr < s.params.base + 0x200 →
    acc.width ≠ .w32 ∨ (acc.addr - s.params.base) % 4 ≠ 0 →
    step s = .fault (.busAccessUnsupported acc)

/-- 20 R62: on the host's turn, a read of an aligned offset completes; it gives the variable the register's value and
changes no state of the block. -/
def Obligations.HostReadHasNoSideEffect : Prop :=
  ∀ (s : State) (a t : Nat), s.blockTurn = false → a < 0x200 → a % 4 = 0 →
    s.hostStmt = some (.rd { addr := s.params.base + a, width := .w32 } t) →
    ∃ u, step s = .next u ∧ getVariable u.host.vars t = readOffset s a ∧
      (∀ x, x ≠ t → getVariable u.host.vars x = getVariable s.host.vars x) ∧
      u = { s with delay := s.delay - 1, host := { s.host with pc := s.host.pc + 1, vars := u.host.vars } }

/-- 20 R62, R66: on the host's turn, a write of an aligned offset is the register's write, the host being at its next
statement, and it completes. -/
def Obligations.HostWriteAppliesTheRegisterWrite : Prop :=
  ∀ (s : State) (a : Nat) (v : Word), s.blockTurn = false → a < 0x200 → a % 4 = 0 →
    s.hostStmt = some (.wr { addr := s.params.base + a, width := .w32 } v) →
    ∃ u, step s = .next u ∧
      writeOffset a v { s with delay := s.delay - 1, host := { s.host with pc := s.host.pc + 1 } } = .next u ∧
      u.host = { s.host with pc := s.host.pc + 1 }

/-- 30 R86: on the host's turn, BNZ and BZ continue at the label exactly when the masked variable is nonzero, or zero, and
else at the next statement, and touch nothing else. A branch that is taken goes to the one place where its label stands;
one that is not taken needs no label. The delay is the model's own count (log 5, log 16). -/
def Obligations.HostBranchesFollowTheMask : Prop :=
  ∀ (s : State) (t l : Nat) (m : Word), s.blockTurn = false →
    let v := getVariable s.host.vars t &&& m
    let hostAt := fun pc => { s with delay := s.delay - 1, host := { s.host with pc := pc } }
    (s.hostStmt = some (.bnz t m l) → v = 0 → step s = .next (hostAt (s.host.pc + 1))) ∧
    (s.hostStmt = some (.bz t m l) → v ≠ 0 → step s = .next (hostAt (s.host.pc + 1))) ∧
    ∀ i, s.host.program[i]? = some (.label l) → (∀ j, s.host.program[j]? = some (.label l) → j = i) →
      (s.hostStmt = some (.bnz t m l) → v ≠ 0 → step s = .next (hostAt i)) ∧
      (s.hostStmt = some (.bz t m l) → v = 0 → step s = .next (hostAt i))

/-- 10 R40: a KEY word shows the key bytes below KEY_LEN, the lower index in the more significant byte, and 0 for the rest;
with KEY_READABLE = 0 it reads 0. -/
def Obligations.KeyWindowShowsTheKey : Prop :=
  ∀ (s : State) (w : Fin 64) (j : Nat), j < 4 → s.keyLen.toNat ≤ s.params.keyMaxBytes →
    let i := 4 * w.val + j
    let shown := (readOffset s (0x100 + 4 * w.val)).toNat / 2 ^ (24 - 8 * j) % 2 ^ 8
    (s.params.keyReadable = true → shown = if i < s.keyLen.toNat then (s.keybuf.read i).toNat else 0) ∧
      (s.params.keyMaxBytes ≤ i → shown = 0) ∧
      (s.params.keyReadable = false → readOffset s (0x100 + 4 * w.val) = 0)

/-- 10 R40, R41: with KEY_READABLE = 0 no host step can tell two key buffers apart: whatever the buffer holds, a host step
ends alike, and where it goes on the host's own state and every register the host can read are the same. -/
def Obligations.UnreadableKeyIsHiddenFromTheHost : Prop :=
  ∀ (s : State) (m : Memory), s.params.keyReadable = false →
    (∀ a, readOffset { s with keybuf := m } a = readOffset s a) ∧
    match hostStep s, hostStep { s with keybuf := m } with
    | .next t, .next t' => t'.host = t.host ∧ ∀ a, readOffset t' a = readOffset t a
    | .fault f, .fault f' => f' = f
    | .refused r, .refused r' => r' = r
    | _, _ => False

/-! ### The whole machine -/

/-- 10 R30, R31, R41-R43, 43 R160: every step keeps the invariant. -/
def Obligations.StepKeepsInvariant : Prop :=
  ∀ s t : State, Inv s → step s = .next t → Inv t

/-- 70 R190: the invariant holds after reset, for every legal choice of parameters, the defaults included. -/
def Obligations.ResetMeetsInvariant : Prop :=
  (∀ p : Params, p.wf = true → Inv (State.resetWith p)) ∧ Inv State.reset

/-- 10 R45 "Consequence", with 40 R101, R104 and 41 R120 for what a performance reads: while a command stays pending, no
step changes it or any register, flag or parameter that its performance reads, nor a result. -/
def Obligations.InputsStayWhilePending : Prop :=
  ∀ (s t : State) (w w' : Word), Inv s → step s = .next t → s.pending = some w → t.pending = some w' →
    w' = w ∧ t.params = s.params ∧ SameConfig s t ∧ SameKeyData s t ∧
      t.status.keyClosed = s.status.keyClosed ∧ t.status.keyValid = s.status.keyValid ∧
      t.status.errInvalidSecret = s.status.errInvalidSecret ∧ t.status.errKeyOverflow = s.status.errKeyOverflow ∧
      t.results = s.results ∧ t.status.resultValid = s.status.resultValid

/-- 10 R24 (RESULT_VALID), 90 C2: RESULT_VALID becomes 1 only when the block performs TOTP_GENERATE with a valid key, and
the result registers then hold that performance's outputs. -/
def Obligations.OnlyGenerateMakesAResult : Prop :=
  ∀ s t : State, step s = .next t → s.status.resultValid = false → t.status.resultValid = true →
    s.blockTurn = true ∧ s.pending = some 0x00000010 ∧ s.status.keyValid = true ∧
      t.results = totpResults s.key s.now s.timeStep s.digits

/-- 60 R170, 10 R25: an error bit of 13:8 that is set is cleared only by a host write of 1 to it or a reset. -/
def Obligations.ErrorBitsAreSticky : Prop :=
  ∀ (s t : State) (e : ErrBit), step s = .next t → s.status.has e = true → t.status.has e = false →
    s.blockTurn = false ∧
      (ResetNext s ∨ ∃ v, s.hostStmt = some (.wr (regAccess s.params .status) v) ∧ v.getLsbD e.bit = true)

/-- 60 R170, 10 R24: the key's flags, bits 4-7, once set are cleared only by DEC_CLEAR or a reset. -/
def Obligations.KeyFlagsAreSticky : Prop :=
  ∀ s t : State, Inv s → step s = .next t →
    (s.status.errInvalidSecret = true ∧ t.status.errInvalidSecret = false) ∨
      (s.status.warnCharSkipped = true ∧ t.status.warnCharSkipped = false) ∨
      (s.status.errKeyOverflow = true ∧ t.status.errKeyOverflow = false) ∨
      (s.status.warnDegenerateKey = true ∧ t.status.warnDegenerateKey = false) →
    (s.blockTurn = true ∧ s.pending = some 0x00000001) ∨ (s.blockTurn = false ∧ ResetNext s)

/-- 90 C1, 40 R104, 41 R121: while ERR_INVALID_SECRET or ERR_KEY_OVERFLOW stands, TOTP_GENERATE gives no code: every result
register reads 0 and RESULT_VALID is 0. -/
def Obligations.NoCodeFromARejectedSecret : Prop :=
  ∀ s : State, Inv s → s.status.errInvalidSecret = true ∨ s.status.errKeyOverflow = true →
    ∃ t, exec .totpGenerate s = .next t ∧ t.status.errNoKey = true ∧ t.status.resultValid = false ∧
      ∀ r ∈ resultRegs, readReg t r = 0

/-- 10 R37, R44: no step changes the parameters, so PARAMS is a constant. -/
def Obligations.ParametersNeverChange : Prop :=
  ∀ s t : State, step s = .next t → t.params = s.params ∧ readReg t .params = readReg s .params

/-- 70 R198, 43 R161, R163: the model's weak fairness (log 5, the model's choice). After at most `delay` steps that keep the
command pending, the next step is its performance, which completes; unless before that a reset discards it or a step of
the host stops the run. -/
def Obligations.PendingCommandIsPerformed : Prop :=
  ∀ (s : State) (w : Word), Inv s → s.pending = some w →
    ∃ k i, k ≤ s.delay ∧ decode w = .instr i ∧
      ((∃ u t, core.run k s = .next u ∧ u.pending = some w ∧ u.blockTurn = true ∧ exec i u = .next t ∧
          step u = .next t.retire) ∨
        (∃ u t, core.run k s = .next u ∧ u.pending = some w ∧ u.blockTurn = false ∧ ResetNext u ∧
          step u = .next t ∧ t.pending = none) ∨
        (∃ u, core.run k s = .next u ∧ u.pending = some w ∧ u.blockTurn = false ∧ goesOn (step u) = false))

/-! ### What the registers show -/

/-- 10 R24, R30-R39: what STATUS, KEY_LEN, DEC_ACC, PARAMS and every result register read, at their offsets, from the fields
of the state, bit by bit where they are made of fields. The digest and the code string are held as their words (log 14). -/
def Obligations.ReadsShowTheFields : Prop :=
  ∀ s : State,
    (∀ k, (readOffset s 0x004).getLsbD k =
      match k with
      | 0 => s.status.busy
      | 1 => s.status.resultValid
      | 2 => s.status.keyClosed
      | 3 => s.status.keyValid
      | 4 => s.status.errInvalidSecret
      | 5 => s.status.warnCharSkipped
      | 6 => s.status.errKeyOverflow
      | 7 => s.status.warnDegenerateKey
      | 8 => s.status.errNoKey
      | 9 => s.status.errDigest
      | 10 => s.status.errConfig
      | 11 => s.status.errCmd
      | 12 => s.status.errSequence
      | 13 => s.status.errBusy
      | _ => false) ∧
    (readOffset s 0x01C).toNat = s.keyLen.toNat ∧
    (∀ k, (readOffset s 0x020).getLsbD k =
      if k < 7 then s.acc.getLsbD k else if 8 ≤ k ∧ k < 11 then s.nbits.getLsbD (k - 8) else false) ∧
    (s.params.wf = true → ∀ k, (readOffset s 0x03C).getLsbD k =
      if k < 9 then s.params.keyMaxBytes.testBit k
      else if k = 16 then s.params.keyReadable
      else if k = 17 then s.params.digestFaultPossible
      else false) ∧
    (readOffset s 0x028).toNat * 2 ^ 32 + (readOffset s 0x024).toNat = s.results.counter.toNat ∧
    (readOffset s 0x02C).toNat = s.results.offset.toNat ∧ (readOffset s 0x030).toNat = s.results.code31.toNat ∧
    readOffset s 0x034 = s.results.codeBin ∧ readOffset s 0x038 = s.results.remaining ∧
    readOffset s 0x040 = s.results.digest.d0 ∧ readOffset s 0x044 = s.results.digest.d1 ∧
    readOffset s 0x048 = s.results.digest.d2 ∧ readOffset s 0x04C = s.results.digest.d3 ∧
    readOffset s 0x050 = s.results.digest.d4 ∧ readOffset s 0x054 = s.results.codeStr.c0 ∧
    readOffset s 0x058 = s.results.codeStr.c1 ∧ readOffset s 0x05C = s.results.codeStr.c2
end

