-- ==== Sys2Proof/Laws/Fields.lean ====
section
/-!
SUPPORT. The fields of a command word as numbers, the words built from fields, and the bits of STATUS and CTRL.
-/

namespace Sys2Proof

theorem opcField_toNat (w : Word) : (opcField w).toNat = w.toNat % 2 ^ 8 := by
  simp [opcField, BitVec.extractLsb'_toNat]

theorem argField_toNat (w : Word) : (argField w).toNat = w.toNat / 2 ^ 8 % 2 ^ 8 := by
  simp [argField, BitVec.extractLsb'_toNat, Nat.shiftRight_eq_div_pow]

theorem rsvField_toNat (w : Word) : (rsvField w).toNat = w.toNat / 2 ^ 16 := by
  have := w.isLt
  simp only [rsvField, BitVec.extractLsb'_toNat, Nat.shiftRight_eq_div_pow]
  omega

theorem append_toNat {m n : Nat} (x : BitVec m) (y : BitVec n) : (x ++ y).toNat = x.toNat * 2 ^ n + y.toNat := by
  rw [BitVec.toNat_append, Nat.shiftLeft_eq, Nat.mul_comm, ← Nat.two_pow_add_eq_or_of_lt y.isLt]

theorem commandWord_toNat (arg opc : Byte) : (commandWord arg opc).toNat = arg.toNat * 2 ^ 8 + opc.toNat := by
  simp only [commandWord, append_toNat]
  simp

/-- A command word is its three fields (30 R80). -/
theorem word_toNat_fields (w : Word) :
    w.toNat = (rsvField w).toNat * 2 ^ 16 + (argField w).toNat * 2 ^ 8 + (opcField w).toNat := by
  rw [opcField_toNat, argField_toNat, rsvField_toNat]
  omega

theorem append_bit {m n : Nat} (x : BitVec m) (y : BitVec n) (k : Nat) :
    (x ++ y).getLsbD k = if k < n then y.getLsbD k else x.getLsbD (k - n) := BitVec.getLsbD_append

theorem ofBool_bit (b : Bool) (k : Nat) : (BitVec.ofBool b).getLsbD k = (decide (k = 0) && b) :=
  BitVec.getLsbD_ofBool b k

namespace Machine

/-- The bits of STATUS (10 R24). -/
theorem Status.toWord_bit (t : Status) (k : Nat) : t.toWord.getLsbD k =
    match k with
    | 0 => t.busy
    | 1 => t.resultValid
    | 2 => t.keyClosed
    | 3 => t.keyValid
    | 4 => t.errInvalidSecret
    | 5 => t.warnCharSkipped
    | 6 => t.errKeyOverflow
    | 7 => t.warnDegenerateKey
    | 8 => t.errNoKey
    | 9 => t.errDigest
    | 10 => t.errConfig
    | 11 => t.errCmd
    | 12 => t.errSequence
    | 13 => t.errBusy
    | _ => false := by
  by_cases hk : 14 ≤ k
  · have h : ∀ n : Nat, (0#18).getLsbD n = false := fun n => BitVec.getLsbD_zero
    obtain ⟨j, rfl⟩ := Nat.exists_eq_add_of_le hk
    simp only [Status.toWord, append_bit, h]
    repeat rw [if_neg (by omega)]
    split <;> first | rfl | omega
  · interval_cases k <;> simp only [Status.toWord, append_bit, ofBool_bit] <;> rfl

/-- The bits 7:0 of CTRL (10 R23). -/
theorem Ctrl.toWord_bit_low (c : Ctrl) (k : Nat) (hk : k < 8) :
    c.toWord.getLsbD k = if k = 0 then c.strict else if k = 1 then c.minkeyEn else false := by
  interval_cases k <;> simp only [Ctrl.toWord, append_bit, ofBool_bit] <;> rfl

/-- CTRL as a number (10 R23). -/
theorem Ctrl.toWord_toNat (c : Ctrl) :
    c.toWord.toNat = c.minKeyBytes.toNat * 2 ^ 8 + c.minkeyEn.toNat * 2 + c.strict.toNat := by
  simp only [Ctrl.toWord, append_toNat]
  cases c.minkeyEn <;> cases c.strict <;> simp <;> omega

theorem packWord_toNat (f : Nat → Byte) (w : Nat) :
    (packWord f w).toNat = (f (4 * w)).toNat * 2 ^ 24 + (f (4 * w + 1)).toNat * 2 ^ 16 +
      (f (4 * w + 2)).toNat * 2 ^ 8 + (f (4 * w + 3)).toNat := by
  simp only [packWord, append_toNat]
  omega

/-- A register found at an offset stands there in the map (10 R20). -/
theorem regAt_offset {a : Nat} {r : Reg} (h : regAt a = some r) : r.offsetOf = a := by
  simpa using List.find?_some h

/-- The word `w` of the KEY window is found at its offset (10 R20, R40). -/
theorem regAt_key (w : Fin 64) : regAt (0x100 + 4 * w.val) = some (.key w) := by
  revert w
  decide +kernel

/-- An access that reaches a register is the aligned 32-bit access at its offset (20 R60, R61). -/
theorem target_register {p : Params} {acc : Access} {a : Nat} (h : acc.target p = .register a) :
    acc = { addr := p.base + a, width := .w32 } ∧ a < 0x200 ∧ a % 4 = 0 := by
  unfold Access.target at h
  split at h
  · cases h
  · split at h
    · rename_i h1 h2
      obtain ⟨addr, width⟩ := acc
      simp only [Target.register.injEq] at h
      simp only [not_or, not_lt, not_le] at h1
      simp only at h2 h h1
      refine ⟨?_, by omega, by omega⟩
      rw [h2.1]
      congr
      omega
    · cases h

/-- The aligned 32-bit access at an offset of the window reaches its register (20 R60, R61). -/
theorem target_aligned (p : Params) {a : Nat} (h1 : a < 0x200) (h2 : a % 4 = 0) :
    Access.target p { addr := p.base + a, width := .w32 } = .register a := by
  unfold Access.target
  simp only [Nat.add_sub_cancel_left]
  rw [if_neg (by omega), if_pos ⟨trivial, h2⟩]

end Machine
end Sys2Proof
end

