-- ==== Sys2Proof/Laws/Memory.lean ====
section
/-!
SUPPORT. KEYBUF: a read after a write gives the byte written, a write leaves every other byte alone, and every write
keeps the canonical form; the same for the host's variables.
-/

namespace Sys2Proof.Machine

@[simp] theorem Memory.read_nil (a : Nat) : Memory.read [] a = 0 := rfl

/-- The canonical form, as a proposition. -/
theorem Memory.wf_iff (m : Memory) :
    m.wf = true ↔ List.Pairwise (fun x y : Host.Cell => x.1 < y.1) m ∧ ∀ c ∈ m, c.2 ≠ 0 := by
  simp [Memory.wf]

@[simp] theorem Memory.wf_nil : Memory.wf [] = true := rfl

theorem Memory.wf_tail {c : Host.Cell} {m : Memory} (h : Memory.wf (c :: m) = true) : m.wf = true := by
  rw [Memory.wf_iff] at h ⊢
  obtain ⟨hs, hn⟩ := h
  exact ⟨(List.pairwise_cons.1 hs).2, fun x hx => hn x (List.mem_cons_of_mem _ hx)⟩

/-- In canonical form, an index below every listed one reads 0x00. -/
theorem Memory.read_eq_zero_of_lt {m : Memory} {a : Nat} (h : ∀ c ∈ m, a < c.1) : m.read a = 0 := by
  induction m with
  | nil => rfl
  | cons c rest ih =>
    obtain ⟨k, v⟩ := c
    have hk : a < k := h (k, v) (by simp)
    simp only [Memory.read, if_neg (Nat.ne_of_gt hk)]
    exact ih fun x hx => h x (List.mem_cons_of_mem _ hx)

/-- A read after a write to the same index gives the byte written. -/
theorem Memory.read_write_same {m : Memory} (h : m.wf = true) (a : Nat) (b : Byte) : (m.write a b).read a = b := by
  induction m with
  | nil => by_cases hb : b = 0#8 <;> simp [Memory.write, Memory.read, hb]
  | cons c rest ih =>
    obtain ⟨k, v⟩ := c
    have hrest : ∀ x ∈ rest, k < x.1 := (List.pairwise_cons.1 ((Memory.wf_iff _).1 h).1).1
    by_cases h1 : a < k
    · by_cases hb : b = 0#8
      · subst hb
        simp only [Memory.write, h1, if_true]
        exact Memory.read_eq_zero_of_lt fun x hx => by
          rcases List.mem_cons.1 hx with rfl | hx
          · exact h1
          · exact Nat.lt_trans h1 (hrest x hx)
      · simp [Memory.write, Memory.read, h1, hb]
    · by_cases h2 : a = k
      · subst h2
        by_cases hb : b = 0#8
        · subst hb
          simpa [Memory.write] using Memory.read_eq_zero_of_lt hrest
        · simp [Memory.write, Memory.read, hb]
      · simp only [Memory.write, h1, h2, if_false, Memory.read, if_neg (Ne.symm h2)]
        exact ih (Memory.wf_tail h)

/-- A write leaves every other index alone. -/
theorem Memory.read_write_other {m : Memory} {a i : Nat} (b : Byte) (hi : i ≠ a) :
    (m.write a b).read i = m.read i := by
  induction m with
  | nil => by_cases hb : b = 0#8 <;> simp [Memory.write, Memory.read, hb, hi.symm]
  | cons c rest ih =>
    obtain ⟨k, v⟩ := c
    by_cases h1 : a < k
    · by_cases hb : b = 0#8 <;> simp [Memory.write, Memory.read, h1, hb, hi.symm]
    · by_cases h2 : a = k
      · subst h2
        by_cases hb : b = 0#8 <;> simp [Memory.write, Memory.read, hb, hi.symm]
      · simp only [Memory.write, h1, h2, if_false, Memory.read, ih]

/-- What a write may list. -/
theorem Memory.mem_write {m : Memory} {a : Nat} {b : Byte} {c : Host.Cell} (hc : c ∈ m.write a b) :
    c ∈ m ∨ (c = (a, b) ∧ b ≠ 0) := by
  induction m with
  | nil => by_cases hb : b = 0#8 <;> simp_all [Memory.write]
  | cons d rest ih =>
    obtain ⟨k, v⟩ := d
    unfold Memory.write at hc
    split at hc
    · split at hc
      · exact .inl hc
      · rcases List.mem_cons.1 hc with rfl | hc
        · exact .inr ⟨rfl, by assumption⟩
        · exact .inl hc
    · split at hc
      · split at hc
        · exact .inl (List.mem_cons_of_mem _ hc)
        · rcases List.mem_cons.1 hc with rfl | hc
          · exact .inr ⟨rfl, by assumption⟩
          · exact .inl (List.mem_cons_of_mem _ hc)
      · rcases List.mem_cons.1 hc with rfl | hc
        · exact .inl (by simp)
        · exact (ih hc).imp_left (List.mem_cons_of_mem _)

/-- Every write keeps the canonical form. -/
theorem Memory.write_wf {m : Memory} (h : m.wf = true) (a : Nat) (b : Byte) : (m.write a b).wf = true := by
  have h' := (Memory.wf_iff m).1 h
  refine (Memory.wf_iff _).2 ⟨?_, fun c hc => ?_⟩
  · induction m with
    | nil => by_cases hb : b = 0#8 <;> simp [Memory.write, hb]
    | cons d rest ih =>
      obtain ⟨k, v⟩ := d
      obtain ⟨hlt, hp⟩ := List.pairwise_cons.1 h'.1
      unfold Memory.write
      split
      · rename_i hak
        split
        · exact h'.1
        · refine List.pairwise_cons.2 ⟨fun x hx => ?_, h'.1⟩
          rcases List.mem_cons.1 hx with rfl | hx
          · exact hak
          · exact Nat.lt_trans hak (hlt x hx)
      · split
        · rename_i hak
          subst hak
          split
          · exact hp
          · exact List.pairwise_cons.2 ⟨hlt, hp⟩
        · refine List.pairwise_cons.2 ⟨fun x hx => ?_, ih (Memory.wf_tail h) ((Memory.wf_iff _).1 (Memory.wf_tail h))⟩
          rcases Memory.mem_write hx with hx | ⟨rfl, -⟩
          · exact hlt x hx
          · simp only
            omega
  · rcases Memory.mem_write hc with hc | ⟨rfl, hb⟩
    · exact h'.2 c hc
    · exact hb

/-- A host variable reads what was assigned to it. -/
theorem getVariable_set_same (vs : List (Nat × Word)) (t : Nat) (v : Word) :
    getVariable (setVariable vs t v) t = v := by
  induction vs with
  | nil => simp [setVariable, getVariable]
  | cons c rest ih =>
    obtain ⟨k, u⟩ := c
    unfold setVariable
    split
    · simp [getVariable]
    · split
      · simp [getVariable]
      · rename_i h
        simp only [getVariable, if_neg (Ne.symm h)]
        exact ih

/-- An assignment leaves every other host variable alone. -/
theorem getVariable_set_other (vs : List (Nat × Word)) {t x : Nat} (v : Word) (hx : x ≠ t) :
    getVariable (setVariable vs t v) x = getVariable vs x := by
  induction vs with
  | nil => simp [setVariable, getVariable, hx.symm]
  | cons c rest ih =>
    obtain ⟨k, u⟩ := c
    unfold setVariable
    split
    · simp [getVariable, hx.symm]
    · split
      · rename_i h
        subst h
        simp [getVariable, hx.symm]
      · simp only [getVariable, ih]

end Sys2Proof.Machine
end

