-- ==== Sys2Proof/Laws/State.lean ====
section
/-!
SUPPORT. Each field after each update of the state: what it holds, true by rfl, for simp.
-/

namespace Sys2Proof.Machine

@[simp] theorem State.raise_params (s : State) (e : ErrBit) : (s.raise e).params = s.params := rfl
@[simp] theorem State.raise_ctrl (s : State) (e : ErrBit) : (s.raise e).ctrl = s.ctrl := rfl
@[simp] theorem State.raise_status (s : State) (e : ErrBit) : (s.raise e).status = s.status.set e := rfl
@[simp] theorem State.raise_timeStep (s : State) (e : ErrBit) : (s.raise e).timeStep = s.timeStep := rfl
@[simp] theorem State.raise_digits (s : State) (e : ErrBit) : (s.raise e).digits = s.digits := rfl
@[simp] theorem State.raise_nowLo (s : State) (e : ErrBit) : (s.raise e).nowLo = s.nowLo := rfl
@[simp] theorem State.raise_nowHi (s : State) (e : ErrBit) : (s.raise e).nowHi = s.nowHi := rfl
@[simp] theorem State.raise_acc (s : State) (e : ErrBit) : (s.raise e).acc = s.acc := rfl
@[simp] theorem State.raise_nbits (s : State) (e : ErrBit) : (s.raise e).nbits = s.nbits := rfl
@[simp] theorem State.raise_keybuf (s : State) (e : ErrBit) : (s.raise e).keybuf = s.keybuf := rfl
@[simp] theorem State.raise_keyLen (s : State) (e : ErrBit) : (s.raise e).keyLen = s.keyLen := rfl
@[simp] theorem State.raise_results (s : State) (e : ErrBit) : (s.raise e).results = s.results := rfl
@[simp] theorem State.raise_pending (s : State) (e : ErrBit) : (s.raise e).pending = s.pending := rfl
@[simp] theorem State.raise_delay (s : State) (e : ErrBit) : (s.raise e).delay = s.delay := rfl
@[simp] theorem State.raise_draws (s : State) (e : ErrBit) : (s.raise e).draws = s.draws := rfl
@[simp] theorem State.raise_host (s : State) (e : ErrBit) : (s.raise e).host = s.host := rfl

@[simp] theorem State.fail_params (s : State) (e : ErrBit) : (s.fail e).params = s.params := rfl
@[simp] theorem State.fail_ctrl (s : State) (e : ErrBit) : (s.fail e).ctrl = s.ctrl := rfl
@[simp] theorem State.fail_status (s : State) (e : ErrBit) : (s.fail e).status = { s.status.set e with resultValid := false } := rfl
@[simp] theorem State.fail_timeStep (s : State) (e : ErrBit) : (s.fail e).timeStep = s.timeStep := rfl
@[simp] theorem State.fail_digits (s : State) (e : ErrBit) : (s.fail e).digits = s.digits := rfl
@[simp] theorem State.fail_nowLo (s : State) (e : ErrBit) : (s.fail e).nowLo = s.nowLo := rfl
@[simp] theorem State.fail_nowHi (s : State) (e : ErrBit) : (s.fail e).nowHi = s.nowHi := rfl
@[simp] theorem State.fail_acc (s : State) (e : ErrBit) : (s.fail e).acc = s.acc := rfl
@[simp] theorem State.fail_nbits (s : State) (e : ErrBit) : (s.fail e).nbits = s.nbits := rfl
@[simp] theorem State.fail_keybuf (s : State) (e : ErrBit) : (s.fail e).keybuf = s.keybuf := rfl
@[simp] theorem State.fail_keyLen (s : State) (e : ErrBit) : (s.fail e).keyLen = s.keyLen := rfl
@[simp] theorem State.fail_results (s : State) (e : ErrBit) : (s.fail e).results = Results.zero := rfl
@[simp] theorem State.fail_pending (s : State) (e : ErrBit) : (s.fail e).pending = s.pending := rfl
@[simp] theorem State.fail_delay (s : State) (e : ErrBit) : (s.fail e).delay = s.delay := rfl
@[simp] theorem State.fail_draws (s : State) (e : ErrBit) : (s.fail e).draws = s.draws := rfl
@[simp] theorem State.fail_host (s : State) (e : ErrBit) : (s.fail e).host = s.host := rfl

@[simp] theorem State.commit_params (s : State) (r : Results) : (s.commit r).params = s.params := rfl
@[simp] theorem State.commit_ctrl (s : State) (r : Results) : (s.commit r).ctrl = s.ctrl := rfl
@[simp] theorem State.commit_status (s : State) (r : Results) : (s.commit r).status = { s.status with resultValid := true } := rfl
@[simp] theorem State.commit_timeStep (s : State) (r : Results) : (s.commit r).timeStep = s.timeStep := rfl
@[simp] theorem State.commit_digits (s : State) (r : Results) : (s.commit r).digits = s.digits := rfl
@[simp] theorem State.commit_nowLo (s : State) (r : Results) : (s.commit r).nowLo = s.nowLo := rfl
@[simp] theorem State.commit_nowHi (s : State) (r : Results) : (s.commit r).nowHi = s.nowHi := rfl
@[simp] theorem State.commit_acc (s : State) (r : Results) : (s.commit r).acc = s.acc := rfl
@[simp] theorem State.commit_nbits (s : State) (r : Results) : (s.commit r).nbits = s.nbits := rfl
@[simp] theorem State.commit_keybuf (s : State) (r : Results) : (s.commit r).keybuf = s.keybuf := rfl
@[simp] theorem State.commit_keyLen (s : State) (r : Results) : (s.commit r).keyLen = s.keyLen := rfl
@[simp] theorem State.commit_results (s : State) (r : Results) : (s.commit r).results = r := rfl
@[simp] theorem State.commit_pending (s : State) (r : Results) : (s.commit r).pending = s.pending := rfl
@[simp] theorem State.commit_delay (s : State) (r : Results) : (s.commit r).delay = s.delay := rfl
@[simp] theorem State.commit_draws (s : State) (r : Results) : (s.commit r).draws = s.draws := rfl
@[simp] theorem State.commit_host (s : State) (r : Results) : (s.commit r).host = s.host := rfl

@[simp] theorem State.drawn_params (s : State) : (s.drawn).params = s.params := rfl
@[simp] theorem State.drawn_ctrl (s : State) : (s.drawn).ctrl = s.ctrl := rfl
@[simp] theorem State.drawn_status (s : State) : (s.drawn).status = s.status := rfl
@[simp] theorem State.drawn_timeStep (s : State) : (s.drawn).timeStep = s.timeStep := rfl
@[simp] theorem State.drawn_digits (s : State) : (s.drawn).digits = s.digits := rfl
@[simp] theorem State.drawn_nowLo (s : State) : (s.drawn).nowLo = s.nowLo := rfl
@[simp] theorem State.drawn_nowHi (s : State) : (s.drawn).nowHi = s.nowHi := rfl
@[simp] theorem State.drawn_acc (s : State) : (s.drawn).acc = s.acc := rfl
@[simp] theorem State.drawn_nbits (s : State) : (s.drawn).nbits = s.nbits := rfl
@[simp] theorem State.drawn_keybuf (s : State) : (s.drawn).keybuf = s.keybuf := rfl
@[simp] theorem State.drawn_keyLen (s : State) : (s.drawn).keyLen = s.keyLen := rfl
@[simp] theorem State.drawn_results (s : State) : (s.drawn).results = s.results := rfl
@[simp] theorem State.drawn_pending (s : State) : (s.drawn).pending = s.pending := rfl
@[simp] theorem State.drawn_delay (s : State) : (s.drawn).delay = s.delay := rfl
@[simp] theorem State.drawn_draws (s : State) : (s.drawn).draws = s.draws + 1 := rfl
@[simp] theorem State.drawn_host (s : State) : (s.drawn).host = s.host := rfl

@[simp] theorem State.place_params (s : State) (w : Word) (n : Nat) : (s.place w n).params = s.params := rfl
@[simp] theorem State.place_ctrl (s : State) (w : Word) (n : Nat) : (s.place w n).ctrl = s.ctrl := rfl
@[simp] theorem State.place_status (s : State) (w : Word) (n : Nat) : (s.place w n).status = { s.status with busy := true, resultValid := s.status.resultValid && !(w == 0x00000010#32) } := rfl
@[simp] theorem State.place_timeStep (s : State) (w : Word) (n : Nat) : (s.place w n).timeStep = s.timeStep := rfl
@[simp] theorem State.place_digits (s : State) (w : Word) (n : Nat) : (s.place w n).digits = s.digits := rfl
@[simp] theorem State.place_nowLo (s : State) (w : Word) (n : Nat) : (s.place w n).nowLo = s.nowLo := rfl
@[simp] theorem State.place_nowHi (s : State) (w : Word) (n : Nat) : (s.place w n).nowHi = s.nowHi := rfl
@[simp] theorem State.place_acc (s : State) (w : Word) (n : Nat) : (s.place w n).acc = s.acc := rfl
@[simp] theorem State.place_nbits (s : State) (w : Word) (n : Nat) : (s.place w n).nbits = s.nbits := rfl
@[simp] theorem State.place_keybuf (s : State) (w : Word) (n : Nat) : (s.place w n).keybuf = s.keybuf := rfl
@[simp] theorem State.place_keyLen (s : State) (w : Word) (n : Nat) : (s.place w n).keyLen = s.keyLen := rfl
@[simp] theorem State.place_results (s : State) (w : Word) (n : Nat) : (s.place w n).results = s.results := rfl
@[simp] theorem State.place_pending (s : State) (w : Word) (n : Nat) : (s.place w n).pending = some w := rfl
@[simp] theorem State.place_delay (s : State) (w : Word) (n : Nat) : (s.place w n).delay = n := rfl
@[simp] theorem State.place_draws (s : State) (w : Word) (n : Nat) : (s.place w n).draws = s.draws := rfl
@[simp] theorem State.place_host (s : State) (w : Word) (n : Nat) : (s.place w n).host = s.host := rfl

@[simp] theorem State.accept_params (s : State) (w : Word) : (s.accept w).params = s.params := rfl
@[simp] theorem State.accept_ctrl (s : State) (w : Word) : (s.accept w).ctrl = s.ctrl := rfl
@[simp] theorem State.accept_status (s : State) (w : Word) : (s.accept w).status = { s.status with busy := true, resultValid := s.status.resultValid && !(w == 0x00000010#32) } := rfl
@[simp] theorem State.accept_timeStep (s : State) (w : Word) : (s.accept w).timeStep = s.timeStep := rfl
@[simp] theorem State.accept_digits (s : State) (w : Word) : (s.accept w).digits = s.digits := rfl
@[simp] theorem State.accept_nowLo (s : State) (w : Word) : (s.accept w).nowLo = s.nowLo := rfl
@[simp] theorem State.accept_nowHi (s : State) (w : Word) : (s.accept w).nowHi = s.nowHi := rfl
@[simp] theorem State.accept_acc (s : State) (w : Word) : (s.accept w).acc = s.acc := rfl
@[simp] theorem State.accept_nbits (s : State) (w : Word) : (s.accept w).nbits = s.nbits := rfl
@[simp] theorem State.accept_keybuf (s : State) (w : Word) : (s.accept w).keybuf = s.keybuf := rfl
@[simp] theorem State.accept_keyLen (s : State) (w : Word) : (s.accept w).keyLen = s.keyLen := rfl
@[simp] theorem State.accept_results (s : State) (w : Word) : (s.accept w).results = s.results := rfl
@[simp] theorem State.accept_pending (s : State) (w : Word) : (s.accept w).pending = some w := rfl
@[simp] theorem State.accept_delay (s : State) (w : Word) : (s.accept w).delay = Config.freeLatency s.draws := rfl
@[simp] theorem State.accept_draws (s : State) (w : Word) : (s.accept w).draws = s.draws + 1 := rfl
@[simp] theorem State.accept_host (s : State) (w : Word) : (s.accept w).host = s.host := rfl

@[simp] theorem State.retire_params (s : State) : (s.retire).params = s.params := rfl
@[simp] theorem State.retire_ctrl (s : State) : (s.retire).ctrl = s.ctrl := rfl
@[simp] theorem State.retire_status (s : State) : (s.retire).status = { s.status with busy := false } := rfl
@[simp] theorem State.retire_timeStep (s : State) : (s.retire).timeStep = s.timeStep := rfl
@[simp] theorem State.retire_digits (s : State) : (s.retire).digits = s.digits := rfl
@[simp] theorem State.retire_nowLo (s : State) : (s.retire).nowLo = s.nowLo := rfl
@[simp] theorem State.retire_nowHi (s : State) : (s.retire).nowHi = s.nowHi := rfl
@[simp] theorem State.retire_acc (s : State) : (s.retire).acc = s.acc := rfl
@[simp] theorem State.retire_nbits (s : State) : (s.retire).nbits = s.nbits := rfl
@[simp] theorem State.retire_keybuf (s : State) : (s.retire).keybuf = s.keybuf := rfl
@[simp] theorem State.retire_keyLen (s : State) : (s.retire).keyLen = s.keyLen := rfl
@[simp] theorem State.retire_results (s : State) : (s.retire).results = s.results := rfl
@[simp] theorem State.retire_pending (s : State) : (s.retire).pending = none := rfl
@[simp] theorem State.retire_delay (s : State) : (s.retire).delay = 0 := rfl
@[simp] theorem State.retire_draws (s : State) : (s.retire).draws = s.draws := rfl
@[simp] theorem State.retire_host (s : State) : (s.retire).host = s.host := rfl

@[simp] theorem State.hostTick_params (s : State) : (s.hostTick).params = s.params := rfl
@[simp] theorem State.hostTick_ctrl (s : State) : (s.hostTick).ctrl = s.ctrl := rfl
@[simp] theorem State.hostTick_status (s : State) : (s.hostTick).status = s.status := rfl
@[simp] theorem State.hostTick_timeStep (s : State) : (s.hostTick).timeStep = s.timeStep := rfl
@[simp] theorem State.hostTick_digits (s : State) : (s.hostTick).digits = s.digits := rfl
@[simp] theorem State.hostTick_nowLo (s : State) : (s.hostTick).nowLo = s.nowLo := rfl
@[simp] theorem State.hostTick_nowHi (s : State) : (s.hostTick).nowHi = s.nowHi := rfl
@[simp] theorem State.hostTick_acc (s : State) : (s.hostTick).acc = s.acc := rfl
@[simp] theorem State.hostTick_nbits (s : State) : (s.hostTick).nbits = s.nbits := rfl
@[simp] theorem State.hostTick_keybuf (s : State) : (s.hostTick).keybuf = s.keybuf := rfl
@[simp] theorem State.hostTick_keyLen (s : State) : (s.hostTick).keyLen = s.keyLen := rfl
@[simp] theorem State.hostTick_results (s : State) : (s.hostTick).results = s.results := rfl
@[simp] theorem State.hostTick_pending (s : State) : (s.hostTick).pending = s.pending := rfl
@[simp] theorem State.hostTick_delay (s : State) : (s.hostTick).delay = s.delay - 1 := rfl
@[simp] theorem State.hostTick_draws (s : State) : (s.hostTick).draws = s.draws := rfl
@[simp] theorem State.hostTick_host (s : State) : (s.hostTick).host = { s.host with pc := s.host.pc + 1 } := rfl

@[simp] theorem State.assign_params (s : State) (t : Nat) (v : Word) : (s.assign t v).params = s.params := rfl
@[simp] theorem State.assign_ctrl (s : State) (t : Nat) (v : Word) : (s.assign t v).ctrl = s.ctrl := rfl
@[simp] theorem State.assign_status (s : State) (t : Nat) (v : Word) : (s.assign t v).status = s.status := rfl
@[simp] theorem State.assign_timeStep (s : State) (t : Nat) (v : Word) : (s.assign t v).timeStep = s.timeStep := rfl
@[simp] theorem State.assign_digits (s : State) (t : Nat) (v : Word) : (s.assign t v).digits = s.digits := rfl
@[simp] theorem State.assign_nowLo (s : State) (t : Nat) (v : Word) : (s.assign t v).nowLo = s.nowLo := rfl
@[simp] theorem State.assign_nowHi (s : State) (t : Nat) (v : Word) : (s.assign t v).nowHi = s.nowHi := rfl
@[simp] theorem State.assign_acc (s : State) (t : Nat) (v : Word) : (s.assign t v).acc = s.acc := rfl
@[simp] theorem State.assign_nbits (s : State) (t : Nat) (v : Word) : (s.assign t v).nbits = s.nbits := rfl
@[simp] theorem State.assign_keybuf (s : State) (t : Nat) (v : Word) : (s.assign t v).keybuf = s.keybuf := rfl
@[simp] theorem State.assign_keyLen (s : State) (t : Nat) (v : Word) : (s.assign t v).keyLen = s.keyLen := rfl
@[simp] theorem State.assign_results (s : State) (t : Nat) (v : Word) : (s.assign t v).results = s.results := rfl
@[simp] theorem State.assign_pending (s : State) (t : Nat) (v : Word) : (s.assign t v).pending = s.pending := rfl
@[simp] theorem State.assign_delay (s : State) (t : Nat) (v : Word) : (s.assign t v).delay = s.delay := rfl
@[simp] theorem State.assign_draws (s : State) (t : Nat) (v : Word) : (s.assign t v).draws = s.draws := rfl
@[simp] theorem State.assign_host (s : State) (t : Nat) (v : Word) : (s.assign t v).host = { s.host with vars := setVariable s.host.vars t v } := rfl

@[simp] theorem State.goto_params (s : State) (i : Nat) : (s.goto i).params = s.params := rfl
@[simp] theorem State.goto_ctrl (s : State) (i : Nat) : (s.goto i).ctrl = s.ctrl := rfl
@[simp] theorem State.goto_status (s : State) (i : Nat) : (s.goto i).status = s.status := rfl
@[simp] theorem State.goto_timeStep (s : State) (i : Nat) : (s.goto i).timeStep = s.timeStep := rfl
@[simp] theorem State.goto_digits (s : State) (i : Nat) : (s.goto i).digits = s.digits := rfl
@[simp] theorem State.goto_nowLo (s : State) (i : Nat) : (s.goto i).nowLo = s.nowLo := rfl
@[simp] theorem State.goto_nowHi (s : State) (i : Nat) : (s.goto i).nowHi = s.nowHi := rfl
@[simp] theorem State.goto_acc (s : State) (i : Nat) : (s.goto i).acc = s.acc := rfl
@[simp] theorem State.goto_nbits (s : State) (i : Nat) : (s.goto i).nbits = s.nbits := rfl
@[simp] theorem State.goto_keybuf (s : State) (i : Nat) : (s.goto i).keybuf = s.keybuf := rfl
@[simp] theorem State.goto_keyLen (s : State) (i : Nat) : (s.goto i).keyLen = s.keyLen := rfl
@[simp] theorem State.goto_results (s : State) (i : Nat) : (s.goto i).results = s.results := rfl
@[simp] theorem State.goto_pending (s : State) (i : Nat) : (s.goto i).pending = s.pending := rfl
@[simp] theorem State.goto_delay (s : State) (i : Nat) : (s.goto i).delay = s.delay := rfl
@[simp] theorem State.goto_draws (s : State) (i : Nat) : (s.goto i).draws = s.draws := rfl
@[simp] theorem State.goto_host (s : State) (i : Nat) : (s.goto i).host = { s.host with pc := i } := rfl

@[simp] theorem State.insertStmt_params (s : State) (st : HostStmt) : (s.insertStmt st).params = s.params := rfl
@[simp] theorem State.insertStmt_ctrl (s : State) (st : HostStmt) : (s.insertStmt st).ctrl = s.ctrl := rfl
@[simp] theorem State.insertStmt_status (s : State) (st : HostStmt) : (s.insertStmt st).status = s.status := rfl
@[simp] theorem State.insertStmt_timeStep (s : State) (st : HostStmt) : (s.insertStmt st).timeStep = s.timeStep := rfl
@[simp] theorem State.insertStmt_digits (s : State) (st : HostStmt) : (s.insertStmt st).digits = s.digits := rfl
@[simp] theorem State.insertStmt_nowLo (s : State) (st : HostStmt) : (s.insertStmt st).nowLo = s.nowLo := rfl
@[simp] theorem State.insertStmt_nowHi (s : State) (st : HostStmt) : (s.insertStmt st).nowHi = s.nowHi := rfl
@[simp] theorem State.insertStmt_acc (s : State) (st : HostStmt) : (s.insertStmt st).acc = s.acc := rfl
@[simp] theorem State.insertStmt_nbits (s : State) (st : HostStmt) : (s.insertStmt st).nbits = s.nbits := rfl
@[simp] theorem State.insertStmt_keybuf (s : State) (st : HostStmt) : (s.insertStmt st).keybuf = s.keybuf := rfl
@[simp] theorem State.insertStmt_keyLen (s : State) (st : HostStmt) : (s.insertStmt st).keyLen = s.keyLen := rfl
@[simp] theorem State.insertStmt_results (s : State) (st : HostStmt) : (s.insertStmt st).results = s.results := rfl
@[simp] theorem State.insertStmt_pending (s : State) (st : HostStmt) : (s.insertStmt st).pending = s.pending := rfl
@[simp] theorem State.insertStmt_delay (s : State) (st : HostStmt) : (s.insertStmt st).delay = s.delay := rfl
@[simp] theorem State.insertStmt_draws (s : State) (st : HostStmt) : (s.insertStmt st).draws = s.draws := rfl
@[simp] theorem State.insertStmt_host (s : State) (st : HostStmt) : (s.insertStmt st).host = { s.host with program := s.host.program.take s.host.pc ++ st :: s.host.program.drop s.host.pc, pc := min s.host.pc s.host.program.length } := rfl

@[simp] theorem State.softReset_params (s : State) : (s.softReset).params = s.params := rfl
@[simp] theorem State.softReset_ctrl (s : State) : (s.softReset).ctrl = Ctrl.reset := rfl
@[simp] theorem State.softReset_status (s : State) : (s.softReset).status = Status.reset := rfl
@[simp] theorem State.softReset_timeStep (s : State) : (s.softReset).timeStep = 30 := rfl
@[simp] theorem State.softReset_digits (s : State) : (s.softReset).digits = 6 := rfl
@[simp] theorem State.softReset_nowLo (s : State) : (s.softReset).nowLo = 0 := rfl
@[simp] theorem State.softReset_nowHi (s : State) : (s.softReset).nowHi = 0 := rfl
@[simp] theorem State.softReset_acc (s : State) : (s.softReset).acc = 0 := rfl
@[simp] theorem State.softReset_nbits (s : State) : (s.softReset).nbits = 0 := rfl
@[simp] theorem State.softReset_keybuf (s : State) : (s.softReset).keybuf = [] := rfl
@[simp] theorem State.softReset_keyLen (s : State) : (s.softReset).keyLen = 0 := rfl
@[simp] theorem State.softReset_results (s : State) : (s.softReset).results = Results.zero := rfl
@[simp] theorem State.softReset_pending (s : State) : (s.softReset).pending = none := rfl
@[simp] theorem State.softReset_delay (s : State) : (s.softReset).delay = 0 := rfl
@[simp] theorem State.softReset_draws (s : State) : (s.softReset).draws = s.draws := rfl
@[simp] theorem State.softReset_host (s : State) : (s.softReset).host = s.host := rfl

@[simp] theorem State.resetWith_ctrl (p : Params) : (State.resetWith p).ctrl = Ctrl.reset := rfl
@[simp] theorem State.resetWith_status (p : Params) : (State.resetWith p).status = Status.reset := rfl
@[simp] theorem State.resetWith_timeStep (p : Params) : (State.resetWith p).timeStep = 30 := rfl
@[simp] theorem State.resetWith_digits (p : Params) : (State.resetWith p).digits = 6 := rfl
@[simp] theorem State.resetWith_nowLo (p : Params) : (State.resetWith p).nowLo = 0 := rfl
@[simp] theorem State.resetWith_nowHi (p : Params) : (State.resetWith p).nowHi = 0 := rfl
@[simp] theorem State.resetWith_acc (p : Params) : (State.resetWith p).acc = 0 := rfl
@[simp] theorem State.resetWith_nbits (p : Params) : (State.resetWith p).nbits = 0 := rfl
@[simp] theorem State.resetWith_keybuf (p : Params) : (State.resetWith p).keybuf = [] := rfl
@[simp] theorem State.resetWith_keyLen (p : Params) : (State.resetWith p).keyLen = 0 := rfl
@[simp] theorem State.resetWith_results (p : Params) : (State.resetWith p).results = Results.zero := rfl
@[simp] theorem State.resetWith_pending (p : Params) : (State.resetWith p).pending = none := rfl
@[simp] theorem State.resetWith_delay (p : Params) : (State.resetWith p).delay = 0 := rfl
@[simp] theorem State.resetWith_params (p : Params) : (State.resetWith p).params = p := rfl

/-! `set ERR_X` touches none of the bits 7:0 (60 R170). -/

@[simp] theorem Status.set_busy (t : Status) (e : ErrBit) : (t.set e).busy = t.busy := by cases e <;> rfl
@[simp] theorem Status.set_resultValid (t : Status) (e : ErrBit) : (t.set e).resultValid = t.resultValid := by cases e <;> rfl
@[simp] theorem Status.set_keyClosed (t : Status) (e : ErrBit) : (t.set e).keyClosed = t.keyClosed := by cases e <;> rfl
@[simp] theorem Status.set_keyValid (t : Status) (e : ErrBit) : (t.set e).keyValid = t.keyValid := by cases e <;> rfl
@[simp] theorem Status.set_errInvalidSecret (t : Status) (e : ErrBit) : (t.set e).errInvalidSecret = t.errInvalidSecret := by cases e <;> rfl
@[simp] theorem Status.set_warnCharSkipped (t : Status) (e : ErrBit) : (t.set e).warnCharSkipped = t.warnCharSkipped := by cases e <;> rfl
@[simp] theorem Status.set_errKeyOverflow (t : Status) (e : ErrBit) : (t.set e).errKeyOverflow = t.errKeyOverflow := by cases e <;> rfl
@[simp] theorem Status.set_warnDegenerateKey (t : Status) (e : ErrBit) : (t.set e).warnDegenerateKey = t.warnDegenerateKey := by cases e <;> rfl

/-! A write-1-to-clear touches none of the bits 7:0 (10 R25). -/

@[simp] theorem Status.clearBy_busy (t : Status) (v : Word) : (t.clearBy v).busy = t.busy := rfl
@[simp] theorem Status.clearBy_resultValid (t : Status) (v : Word) : (t.clearBy v).resultValid = t.resultValid := rfl
@[simp] theorem Status.clearBy_keyClosed (t : Status) (v : Word) : (t.clearBy v).keyClosed = t.keyClosed := rfl
@[simp] theorem Status.clearBy_keyValid (t : Status) (v : Word) : (t.clearBy v).keyValid = t.keyValid := rfl
@[simp] theorem Status.clearBy_errInvalidSecret (t : Status) (v : Word) : (t.clearBy v).errInvalidSecret = t.errInvalidSecret := rfl
@[simp] theorem Status.clearBy_warnCharSkipped (t : Status) (v : Word) : (t.clearBy v).warnCharSkipped = t.warnCharSkipped := rfl
@[simp] theorem Status.clearBy_errKeyOverflow (t : Status) (v : Word) : (t.clearBy v).errKeyOverflow = t.errKeyOverflow := rfl
@[simp] theorem Status.clearBy_warnDegenerateKey (t : Status) (v : Word) : (t.clearBy v).warnDegenerateKey = t.warnDegenerateKey := rfl

end Sys2Proof.Machine
end

