-- ==== Sys2Proof/Laws/Exec.lean ====
section
/-!
SUPPORT. What a command can do, said once for each: if it answers a next state, then one of the listed cases holds; and
what the shared operations of the engine compute, as numbers.
-/

namespace Sys2Proof.Machine

/-- The state DEC_FINISH leaves of an open decoder (40 R104). -/
def finishedState (s : State) : State :=
  { s with
    acc := 0
    nbits := 0
    status := { s.status with
      keyClosed := true
      warnDegenerateKey := s.degenerate
      keyValid := !s.status.errInvalidSecret && !s.status.errKeyOverflow && !(s.ctrl.minkeyEn && s.degenerate) } }

/-- The cases of a command's performance (40 R100-R104, 41 R120-R129, 43 R163). -/
inductive ExecEffect (s : State) : Instr → State → Prop
  | cleared : ExecEffect s .decClear
      { s with acc := 0, nbits := 0, keybuf := [], keyLen := 0, status := s.status.clearDecoder }
  | pushWhileClosed (c : Byte) (hc : s.status.keyClosed = true) : ExecEffect s (.decPush c) (s.raise .sequence)
  | rejected {c : Byte} (hc : s.status.keyClosed = false) (hv : classify c = none) :
      ExecEffect s (.decPush c) s.rejectChar
  | packed {c : Byte} {v : BitVec 5} (hc : s.status.keyClosed = false) (hv : classify c = some v) :
      ExecEffect s (.decPush c) (s.pack v)
  | finishWhileClosed (hc : s.status.keyClosed = true) : ExecEffect s .decFinish (s.raise .sequence)
  | finished (hc : s.status.keyClosed = false) : ExecEffect s .decFinish (finishedState s)
  | noKey (hv : s.status.keyValid = false) : ExecEffect s .totpGenerate (s.fail .noKey)
  | digestFailed (hv : s.status.keyValid = true) (hp : s.params.digestFaultPossible = true)
      (hd : Config.freeDigestFails s.draws = true) : ExecEffect s .totpGenerate (s.drawn.fail .digest)
  | committed (hv : s.status.keyValid = true) (hp : s.params.digestFaultPossible = false) :
      ExecEffect s .totpGenerate (s.commit (totpResults s.key s.now s.timeStep s.digits))
  | committedDrawn (hv : s.status.keyValid = true) (hp : s.params.digestFaultPossible = true)
      (hd : Config.freeDigestFails s.draws = false) :
      ExecEffect s .totpGenerate (s.drawn.commit (totpResults s.key s.now s.timeStep s.digits))
  | reset : ExecEffect s .softReset s.softReset

/-- A command that answers a next state has one of the effects of `ExecEffect`. -/
theorem exec_effect {i : Instr} {s t : State} (h : exec i s = .next t) : ExecEffect s i t := by
  cases i with
  | decClear => cases h; exact .cleared
  | decPush c =>
    simp only [exec, execDecPush] at h
    split at h
    · rename_i hc
      cases h
      exact .pushWhileClosed c hc
    · rename_i hc
      simp only [Bool.not_eq_true] at hc
      split at h
      · rename_i hv
        cases h
        exact .rejected hc hv
      · rename_i hv
        cases h
        exact .packed hc hv
  | decFinish =>
    simp only [exec, execDecFinish] at h
    split at h
    · rename_i hc
      cases h
      exact .finishWhileClosed hc
    · rename_i hc
      simp only [Bool.not_eq_true] at hc
      cases h
      exact .finished hc
  | totpGenerate =>
    simp only [exec, execTotpGenerate, State.drawDigest] at h
    split at h
    · rename_i hv
      by_cases hp : s.params.digestFaultPossible = true
      · cases hd : Config.freeDigestFails s.draws <;> simp [hp, hd] at h <;> subst h
        · exact .committedDrawn hv hp hd
        · exact .digestFailed hv hp hd
      · simp only [Bool.not_eq_true] at hp
        simp [hp] at h
        subst h
        exact .committed hv hp
    · rename_i hv
      simp only [Bool.not_eq_true] at hv
      cases h
      exact .noKey hv
  | softReset => cases h; exact .reset

/-- The bits pending after a symbol, as a number (40 R103). -/
theorem packedBits_toNat (acc : BitVec 7) (v : BitVec 5) : (packedBits acc v).toNat = acc.toNat * 32 + v.toNat := by
  rw [packedBits, append_toNat]
  norm_num

/-- NOW as a number (10 R28). -/
theorem State.now_toNat (s : State) : s.now.toNat = s.nowHi.toNat * 2 ^ 32 + s.nowLo.toNat := append_toNat _ _

theorem State.key_length (s : State) : s.key.length = s.keyLen.toNat := by simp [State.key]

theorem truncOffset_toNat (d : List Byte) : (truncOffset d).toNat = (byteAt d 19).toNat % 16 := by
  simp [truncOffset, BitVec.extractLsb'_toNat]

/-- The 31-bit code as a number (41 R124). -/
theorem truncCode_toNat (d : List Byte) :
    (truncCode d).toNat =
      (byteAt d (truncOffset d).toNat).toNat % 128 * 2 ^ 24 + (byteAt d ((truncOffset d).toNat + 1)).toNat * 2 ^ 16 +
        (byteAt d ((truncOffset d).toNat + 2)).toNat * 2 ^ 8 + (byteAt d ((truncOffset d).toNat + 3)).toNat := by
  simp only [truncCode, append_toNat, BitVec.extractLsb'_toNat]
  simp
  omega

theorem reduceCode_lt (c : BitVec 31) (n : Nat) : reduceCode c n < 2 ^ 31 :=
  lt_of_le_of_lt (Nat.mod_le _ _) c.isLt

theorem be64_length (x : DWord) : (be64 x).length = 8 := rfl

theorem be32_length (x : Word) : (be32 x).length = 4 := rfl

/-- The length of the padded message (42 R143). -/
theorem sha1Pad_length (m : List Byte) : (sha1Pad m).length = m.length + 9 + padZeros m.length := by
  simp [sha1Pad, be64_length]
  omega

/-- Every write to the window answers a next state (20 R62, 43 R160). -/
theorem writeOffset_next (a : Nat) (v : Word) (s : State) : ∃ t, writeOffset a v s = .next t := by
  unfold writeOffset
  split
  · rename_i r _
    cases r <;> first | exact ⟨_, rfl⟩ | skip
    simp only [writeReg, writeCmd]
    split_ifs
    · exact ⟨_, rfl⟩
    · exact ⟨_, rfl⟩
    · split <;> exact ⟨_, rfl⟩
  · exact ⟨_, rfl⟩

/-- A statement inserted is the one the host runs next. -/
theorem hostStmt_insertStmt (st : HostStmt) (s : State) : (s.insertStmt st).hostStmt = some st := by
  simp only [State.hostStmt, State.insertStmt]
  rw [List.getElem?_append_right (by simp)]
  simp

end Sys2Proof.Machine
end

