-- ==== Sys2Proof/Laws/PerInstr.lean ====
section
/-!
SUPPORT. A law of every command as syntax: its encoded word is accepted by the row of the opcode table that bears its
mnemonic (30 R81).
-/

namespace Sys2Proof.Laws.EncodedRow

/-- The command's word is one of its own row (30 R81). -/
def Statement (i : Instr) : Prop := ∃ r ∈ opcodeTable, r.mnemonic = i.mnemonic ∧ r.accepts (encode i) = true

theorem decClear : Statement .decClear := by
  unfold Statement
  decide

theorem decPush (c : Byte) : Statement (.decPush c) := by
  refine ⟨⟨"DEC_PUSH", 0x00000002, 0xFFFF00FF⟩, by decide, rfl, ?_⟩
  revert c
  decide +kernel

theorem decFinish : Statement .decFinish := by
  unfold Statement
  decide

theorem totpGenerate : Statement .totpGenerate := by
  unfold Statement
  decide

theorem softReset : Statement .softReset := by
  unfold Statement
  decide

end Sys2Proof.Laws.EncodedRow
end

