-- ==== Sys2Proof/Laws/Step.lean ====
section
/-!
SUPPORT. What a host write, a host statement and a step can do, said once: if it answers a next state, then one of the
listed cases holds.
-/

namespace Sys2Proof.Machine

/-- What a write at an offset can do (10 R23-R29, R45, 43 R160). -/
inductive WriteEffect (a : Nat) (v : Word) (s : State) : State → Prop
  | ignored : WriteEffect a v s s
  | cleared (ha : a = 0x004) : WriteEffect a v s { s with status := s.status.clearBy v }
  | busy (hb : s.status.busy = true) : WriteEffect a v s (s.raise .busy)
  | reset (ha : a = 0x008) (hv : v = 0x000000FF) : WriteEffect a v s s.softReset
  | illegal (ha : a = 0x008) (hb : s.status.busy = false) {why : IllegalWord} (hd : decode v = .illegal why) :
      WriteEffect a v s (s.raise .cmd)
  | accepted (ha : a = 0x008) (hv : v ≠ 0x000000FF) (hb : s.status.busy = false) {i : Instr}
      (hd : decode v = .instr i) : WriteEffect a v s (s.accept v)
  | ctrl (ha : a = 0x000) (hb : s.status.busy = false) : WriteEffect a v s { s with ctrl := Ctrl.ofWord v }
  | timeStep (ha : a = 0x00C) (hb : s.status.busy = false) (hv : v ≠ 0) : WriteEffect a v s { s with timeStep := v }
  | digits (ha : a = 0x010) (hb : s.status.busy = false) (hv : 1 ≤ v ∧ v ≤ 10) :
      WriteEffect a v s { s with digits := v }
  | refusedValue (hb : s.status.busy = false) : WriteEffect a v s (s.raise .config)
  | nowLo (ha : a = 0x014) (hb : s.status.busy = false) : WriteEffect a v s { s with nowLo := v }
  | nowHi (ha : a = 0x018) (hb : s.status.busy = false) : WriteEffect a v s { s with nowHi := v }

theorem writeCmd_effect {v : Word} {s t : State} (h : writeCmd v s = .next t) : WriteEffect 0x008 v s t := by
  unfold writeCmd at h
  split at h
  · rename_i hv
    cases h
    exact .reset rfl hv
  · rename_i hv
    split at h
    · rename_i hb
      cases h
      exact .busy hb
    · rename_i hb
      simp only [Bool.not_eq_true] at hb
      split at h
      · rename_i hd
        cases h
        exact .illegal rfl hb hd
      · rename_i hd
        cases h
        exact .accepted rfl hv hb hd

/-- A write that answers a next state has one of the effects of `WriteEffect`. -/
theorem writeOffset_effect {a : Nat} {v : Word} {s t : State} (h : writeOffset a v s = .next t) :
    WriteEffect a v s t := by
  unfold writeOffset at h
  split at h
  · rename_i r hr
    have ho : r.offsetOf = a := regAt_offset hr
    by_cases hb : s.status.busy = true
    · cases r <;> simp only [writeReg, State.unlessBusy, hb, if_true] at h <;>
        first
          | (cases h; exact .ignored)
          | (cases h; exact .busy hb)
          | (cases h; exact .cleared ho.symm)
          | (obtain rfl := ho.symm; exact writeCmd_effect h)
    · simp only [Bool.not_eq_true] at hb
      cases r <;> simp only [writeReg, State.unlessBusy, hb] at h
      case cmd => obtain rfl := ho.symm; exact writeCmd_effect h
      case ctrl => cases h; exact .ctrl ho.symm hb
      case status => cases h; exact .cleared ho.symm
      case nowLo => cases h; exact .nowLo ho.symm hb
      case nowHi => cases h; exact .nowHi ho.symm hb
      case timeStep =>
        cases h
        by_cases hv : v = 0
        · simp only [writeTimeStep, if_pos hv, Bool.false_eq_true, if_false]
          exact .refusedValue hb
        · simp only [writeTimeStep, if_neg hv, Bool.false_eq_true, if_false]
          exact .timeStep ho.symm hb hv
      case digits =>
        cases h
        by_cases hv : 1 ≤ v ∧ v ≤ 10
        · simp only [writeDigits, if_pos hv, Bool.false_eq_true, if_false]
          exact .digits ho.symm hb hv
        · simp only [writeDigits, if_neg hv, Bool.false_eq_true, if_false]
          exact .refusedValue hb
      all_goals (cases h; exact .ignored)
  · cases h
    exact .ignored

/-- What a host statement can do (30 R86); `s` is the state whose host is at the following statement. -/
inductive StmtEffect (st : HostStmt) (s : State) : State → Prop
  | write {a : Nat} {v : Word} {t : State} (hs : st = .wr { addr := s.params.base + a, width := .w32 } v)
      (ha : a < 0x200) (h4 : a % 4 = 0) (he : WriteEffect a v s t) : StmtEffect st s t
  | read {a t : Nat} (hs : st = .rd { addr := s.params.base + a, width := .w32 } t) (ha : a < 0x200)
      (h4 : a % 4 = 0) : StmtEffect st s (s.assign t (readOffset s a))
  | onward : StmtEffect st s s
  | jump (i : Nat) : StmtEffect st s (s.goto i)
  | reset (hs : st = .platformReset) : StmtEffect st s s.softReset

theorem branch_effect {b : Bool} {l : Nat} {st : HostStmt} {s t : State} (h : branch b l s = .next t) :
    StmtEffect st s t := by
  unfold branch at h
  split at h
  · split at h
    · cases h; exact .jump _
    · cases h
  · cases h; exact .onward

theorem withAccess_next {acc : Access} {s t : State} {k : Nat → Host.Outcome State Fault Refusal}
    (h : withAccess acc s k = .next t) :
    ∃ a, acc = { addr := s.params.base + a, width := .w32 } ∧ a < 0x200 ∧ a % 4 = 0 ∧ k a = .next t := by
  unfold withAccess at h
  split at h
  · rename_i a hacc
    obtain ⟨h1, h2, h3⟩ := target_register hacc
    exact ⟨a, h1, h2, h3, h⟩
  · cases h
  · cases h

/-- A statement that answers a next state has one of the effects of `StmtEffect`. -/
theorem runStmt_effect {st : HostStmt} {s t : State} (h : runStmt st s = .next t) : StmtEffect st s t := by
  cases st with
  | wr acc v =>
    obtain ⟨a, rfl, ha, h4, hk⟩ := withAccess_next h
    exact .write rfl ha h4 (writeOffset_effect hk)
  | rd acc x =>
    obtain ⟨a, rfl, ha, h4, hk⟩ := withAccess_next h
    cases hk
    exact .read rfl ha h4
  | label l => cases h; exact .onward
  | bnz x m l => exact branch_effect h
  | bz x m l => exact branch_effect h
  | platformReset => cases h; exact .reset rfl

/-- What a step can do (00 R12): the block performs the pending command, or the host runs a statement, or nothing is left
to do. -/
inductive StepEffect (s : State) : State → Prop
  | performed (hb : s.blockTurn = true) {w : Word} {i : Instr} {u : State} (hw : s.pending = some w)
      (hd : decode w = .instr i) (hp : pendable i = true) (he : exec i s = .next u) : StepEffect s u.retire
  | hostRan (hb : s.blockTurn = false) {st : HostStmt} {t : State} (hs : s.hostStmt = some st)
      (he : StmtEffect st s.hostTick t) : StepEffect s t
  | idle (hb : s.blockTurn = false) (hs : s.hostStmt = none) (hp : s.pending = none) : StepEffect s s

/-- A step that answers a next state has one of the effects of `StepEffect`. -/
theorem step_effect {s t : State} (h : step s = .next t) : StepEffect s t := by
  unfold step stepAgents at h
  split at h
  · rename_i hb
    unfold performPending at h
    split at h
    · rename_i hp
      simp [State.blockTurn, hp] at hb
    · rename_i w hw
      split at h
      · rename_i i hd
        split at h
        · rename_i hp
          unfold retireOutcome at h
          split at h
          · rename_i u hu
            cases h
            exact .performed hb hw hd hp hu
          · cases h
          · cases h
        · cases h
      · cases h
  · rename_i hb
    simp only [Bool.not_eq_true] at hb
    unfold hostStep at h
    split at h
    · rename_i hs
      cases h
      refine .idle hb hs ?_
      cases hp : s.pending with
      | none => rfl
      | some w => simp [State.blockTurn, hp, hs] at hb
    · rename_i st hs
      exact .hostRan hb hs (runStmt_effect h)

end Sys2Proof.Machine
end

