-- ==== Sys2Proof/Tests/Slice0.lean ====
section
/-!
SUPPORT. Tests: the well-formedness checks refuse ill-formed terms; words written out from spec/30_encoding.md decode to
their commands; worked examples of spec/95_test_vectors.md, one step each; and, for every statement with hypotheses, a
state and operands that meet them (test_witness_<its name>).
-/

open Sys2Proof Sys2Proof.Machine

namespace Sys2Proof.Tests

/-! ### Well-formedness -/

/-- 00 R6: BASE is a multiple of 0x200. -/
theorem test_wf_refuses_base : Params.wf { Params.default with base := 0x100 } = false := by decide

/-- 00 R6: KEY_MAX_BYTES is at least 1. -/
theorem test_wf_refuses_no_key_bytes : Params.wf { Params.default with keyMaxBytes := 0 } = false := by decide

/-- 00 R6: KEY_MAX_BYTES is at most 256. -/
theorem test_wf_refuses_too_many_key_bytes : Params.wf { Params.default with keyMaxBytes := 257 } = false := by decide

theorem test_wf_accepts :
    Params.wf { Params.default with base := 0x1200, keyMaxBytes := 256, keyReadable := false } = true := by decide

/-- 30 R87: each label is fresh. -/
theorem test_wf_refuses_label_twice : programWf [.label 1, .label 1] = false := by decide

/-- 30 R86: a branch names a label of the program. -/
theorem test_wf_refuses_missing_label : programWf [.label 1, .bnz 0 1 2] = false := by decide

theorem test_wf_accepts_program : programWf (loadKeyStmts Params.default 0 1 [0x4D, 0x59]) = true := by decide

theorem test_wf_every_command :
    [Instr.decClear, .decPush 0x00, .decPush 0xFF, .decFinish, .totpGenerate, .softReset].all Instr.wf = true := by
  decide

/-! ### Decoding: the words of 30 R81, bit by bit, OPC 7:0, ARG 15:8, RSV 31:16 -/

/-- 30 R81: `00000000 00000000 00000000 00000001`. -/
theorem test_decode_dec_clear : decode 0b00000000000000000000000000000001 = .instr .decClear := by decide

/-- 95 part 3: DEC_PUSH 'G' is 0x00004702. -/
theorem test_decode_dec_push : decode 0b00000000000000000100011100000010 = .instr (.decPush 0x47) := by decide

/-- 30 R81: `00000000 00000000 00000000 00000011`. -/
theorem test_decode_dec_finish : decode 0b00000000000000000000000000000011 = .instr .decFinish := by decide

/-- 30 R81: `00000000 00000000 00000000 00010000`. -/
theorem test_decode_totp_generate : decode 0b00000000000000000000000000010000 = .instr .totpGenerate := by decide

/-- 30 R81: `00000000 00000000 00000000 11111111`. -/
theorem test_decode_soft_reset : decode 0b00000000000000000000000011111111 = .instr .softReset := by decide

/-- 95 K-1 to K-3, and a DEC_FINISH with an operand (30 R84). -/
theorem test_decode_illegal :
    decode 0x00000000 = .illegal .unknownOpc ∧ decode 0x00004101 = .illegal .argNonzero ∧
      decode 0x00010002 = .illegal .reservedFieldNonzero ∧ decode 0x00000103 = .illegal .argNonzero ∧
      decode 0x00000004 = .illegal .unknownOpc ∧ decode 0x80000001 = .illegal .reservedFieldNonzero := by decide

theorem test_decode_table_word :
    decodeTableWord 32 0x02 = some (.decPush 0) ∧ decodeTableWord 32 0xFF = some .softReset ∧
      decodeTableWord 32 0x00 = none ∧ decodeTableWord 8 0x10 = some .totpGenerate := by decide

/-! ### Small states -/

/-- The machine after reset with a host program. -/
def withProgram (p : List HostStmt) : State := { State.reset with host := { program := p, pc := 0, vars := [] } }

/-- An accepted key "foo" (95 V-D7, V-E16). -/
def fooState : State :=
  { State.reset with
    keybuf := [(0, 0x66), (1, 0x6F), (2, 0x6F)]
    keyLen := 3
    nowLo := 59
    status := { Status.reset with keyClosed := true, keyValid := true, warnDegenerateKey := true } }

/-- An accepted empty key (95 V-S9, V-E14). -/
def emptyKeyState : State :=
  { State.reset with
    status := { Status.reset with keyClosed := true, keyValid := true, warnDegenerateKey := true } }

/-- A pending DEC_PUSH 'A' that waits for two host steps (95 K-4). -/
def waitingState : State :=
  { withProgram [.label 0, .label 1] with
    pending := some 0x00004102
    delay := 2
    status := { Status.reset with busy := true } }

/-- What a test reads of an outcome. -/
def check (o : Host.Outcome State Fault Refusal) (f : State → Bool) : Bool :=
  match o with
  | .next s => f s
  | .fault _ => false
  | .refused _ => false

/-! ### Commands -/

/-- 40 R100: after `LOADKEY "MY"`, DEC_CLEAR gives KEY_LEN = 0, DEC_ACC = 0, STATUS bits 2-7 = 0. -/
theorem test_dec_clear :
    check (exec .decClear fooState) (fun t => t.keyLen == 0 && t.keybuf == [] && t.status == Status.reset) = true := by
  decide

/-- 40 R103: from reset, 'M' then 'Y' give DEC_ACC = 0x50C and then 0x200 with KEY0 = 0x66000000. -/
theorem test_dec_push_packs :
    check (exec (.decPush 0x4D) State.reset) (fun t => readReg t .decAcc == 0x50C &&
      check (exec (.decPush 0x59) t) (fun u => readReg u .decAcc == 0x200 && readReg u (.key 0) == 0x66000000)) = true := by
  decide

/-- 95 V-D41: DEC_PUSH while CLOSED gives STATUS = 0x108C, and '1' in strict mode ERR_INVALID_SECRET alone. -/
theorem test_dec_push_errors :
    check (exec (.decPush 0x59) fooState) (fun t => t.status.toWord == 0x0000108C && t.keyLen == 3) = true ∧
      check (exec (.decPush 0x31) State.reset) (fun t => t.status.toWord == 0x00000010 && readReg t .decAcc == 0) =
        true := by
  decide

/-- 95 V-D43: DEC_FINISH only: STATUS = 0x8C, and 0x84 with CTRL = 0x00000A03. -/
theorem test_dec_finish :
    check (exec .decFinish State.reset) (fun t => t.status.toWord == 0x0000008C) = true ∧
      check (exec .decFinish { State.reset with ctrl := Ctrl.ofWord 0x00000A03 })
        (fun t => t.status.toWord == 0x00000084) = true := by
  decide

/-- 95 V-D36, V-D37: with MINKEY_EN a key of 9 bytes is rejected and one of 10 accepted. -/
theorem test_dec_finish_threshold :
    check (exec .decFinish { State.reset with keyLen := 9, ctrl := Ctrl.ofWord 0x00000A03 })
        (fun t => t.status.toWord == 0x00000084) = true ∧
      check (exec .decFinish { State.reset with keyLen := 10, ctrl := Ctrl.ofWord 0x00000A03 })
        (fun t => t.status.toWord == 0x0000000C) = true := by
  decide

/-- 95 V-E16: key "foo", NOW = 59: code "398408", offset 6. -/
theorem test_totp_generate :
    check (exec .totpGenerate fooState) (fun t => readReg t .codeBin == 398408 && readReg t .offset == 6 &&
      readReg t (.codeStr 0) == 0x33393834 && readReg t (.codeStr 1) == 0x30380000 && readReg t .remaining == 1 &&
      t.status.toWord == 0x0000008E) = true := by
  decide +kernel

/-- 95 K-9: no key after reset: STATUS = 0x100. -/
theorem test_totp_generate_no_key :
    check (exec .totpGenerate State.reset) (fun t => t.status.toWord == 0x00000100 && t.results == Results.zero) =
      true := by
  decide

/-- 43 R163: CTRL = 0x00000A01, STATUS = 0, KEY_LEN = 0. -/
theorem test_soft_reset :
    check (exec .softReset { fooState with ctrl := Ctrl.ofWord 0 })
      (fun t => readReg t .ctrl == 0x00000A01 && t.status.toWord == 0 && t.keyLen == 0) = true := by
  decide

/-! ### The engine and the hash -/

/-- 95 V-E7: key K, DIGITS = 10: CODE_STR "1094287082". -/
theorem test_totp_ten_digits :
    (totpResults [0x31, 0x32, 0x33, 0x34, 0x35, 0x36, 0x37, 0x38, 0x39, 0x30, 0x31, 0x32, 0x33, 0x34, 0x35, 0x36, 0x37,
      0x38, 0x39, 0x30] 59 30 10).codeStr = ⟨0x31303934, 0x32383730, 0x38320000⟩ := by
  decide +kernel

/-- 95 V-E20: a key of 65 bytes is hashed first: CODE_BIN = 428521. -/
theorem test_totp_long_key :
    (totpResults ((List.range 65).map fun i => BitVec.ofNat 8 i) 59 30 6).codeBin = 428521 := by
  decide +kernel

/-- 95 V-E21: the largest REMAINING. -/
theorem test_totp_largest_remaining :
    secondsRemaining 0xFFFFFFFFFFFFFFFF 0xFFFFFFFF = 4294967295 ∧
      totpCounter 0xFFFFFFFFFFFFFFFF 0xFFFFFFFF = 0x0000000100000001 := by
  decide

/-- 95 V-S3: `dec(42, 6) = "000042"`. -/
theorem test_dec_pads : dec 42 6 = [0x30, 0x30, 0x30, 0x30, 0x34, 0x32] := by decide

/-- 95 V-D11: "MZXW6YTBOI" is "foobar" by the source's algorithm. -/
theorem test_decode_secret :
    decodeSecret [0x4D, 0x5A, 0x58, 0x57, 0x36, 0x59, 0x54, 0x42, 0x4F, 0x49] =
      [0x66, 0x6F, 0x6F, 0x62, 0x61, 0x72] := by
  decide

/-! ### The window and the host -/

/-- 95 K-14: CTRL written with ones reads 0x0000FF03; 95 K-13: PARAMS = 0x00010040, a reserved offset and CMD read 0. -/
theorem test_window_reads :
    check (writeOffset 0x000 0xFFFFFFFF State.reset) (fun t => readOffset t 0x000 == 0x0000FF03) = true ∧
      readOffset State.reset 0x03C = 0x00010040 ∧ readOffset State.reset 0x060 = 0 ∧ readOffset State.reset 0x008 = 0 := by
  decide

/-- 95 K-8: a STATUS write of ones keeps bits 2, 4, 7 and clears 10 and 11. -/
theorem test_status_write :
    check (writeOffset 0x004 0xFFFFFFFF { State.reset with
        status := { Status.reset with
          keyClosed := true, errInvalidSecret := true, warnDegenerateKey := true, errConfig := true, errCmd := true } })
      (fun t => t.status.toWord == 0x00000094) = true := by
  decide

/-- 95 K-5: an illegal word while busy sets ERR_BUSY only. -/
theorem test_illegal_word_while_busy :
    check (writeOffset 0x008 0 waitingState) (fun t => t.status.toWord == 0x00002001) = true := by decide

/-- 95 K-6: accepting TOTP_GENERATE clears RESULT_VALID. -/
theorem test_acceptance_clears_result_valid :
    check (writeOffset 0x008 0x00000010 { fooState with status := { fooState.status with resultValid := true } })
      (fun t => t.status.toWord == 0x0000008D && t.pending == some 0x00000010) = true := by
  decide

/-- 30 R86, R87: WAIT on an idle block falls through. -/
theorem test_wait_falls_through :
    check (core.run 3 (withProgram (waitStmts Params.default 0 7))) (fun t => t.host.pc == 3) = true := by
  decide +kernel

/-- 70 R198, 95 K-4: the pending 'A' is performed after the two host steps. -/
theorem test_latency_counts_host_steps :
    check (core.run 2 waitingState) (fun t => t.status.busy && t.delay == 0) = true ∧
      check (core.run 3 waitingState) (fun t => !t.status.busy && readReg t .decAcc == 0x500) = true := by
  decide +kernel

/-- Log 4: the next step runs a placed word, SOFT_RESET's and an illegal one's included. -/
theorem test_placed_words_run :
    check (step (State.reset.withFetchWord 32 0x4D02)) (fun t => readReg t .decAcc == 0x50C && !t.status.busy) = true ∧
      check (step (fooState.withFetchWord 32 0xFF)) (fun t => t.keyLen == 0) = true ∧
      check (step (waitingState.withFetchWord 32 0x00)) (fun t => t.status.toWord == 0x00002001) = true := by
  decide +kernel

/-- 20 R60: an address outside the window is refused by name. -/
theorem test_outside_window_refused :
    (match step (withProgram [.rd { addr := 0x200, width := .w32 } 0]) with
      | .refused (.addressOutsideWindow acc) => acc.addr == 0x200
      | _ => false) = true := by
  decide +kernel

/-- A branch to an undefined label is refused by name (log 10). -/
theorem test_undefined_label_refused :
    (match step { withProgram [.bz 0 0 5] with host := { program := [.bz 0 0 5], pc := 0, vars := [(0, 1)] } } with
      | .refused (.undefinedLabel l) => l == 5
      | _ => false) = true := by
  decide +kernel

/-! ### Witnesses: a state and operands that meet each statement's hypotheses -/

theorem test_witness_LegalWordsMatchExactlyOneRow :
    (∃ r ∈ opcodeTable, r.accepts 0x0000FF02 = true) ∧ decode 0x0000FF02 = .instr (.decPush 0xFF) := by decide

theorem test_witness_IllegalWordsSetOneErrorBit :
    decode 0x00000000 = .illegal .unknownOpc ∧ decode 0x00000100 = .illegal .unknownOpc ∧
      decode 0x00000103 = .illegal .argNonzero ∧ decode 0xFFFF0002 = .illegal .reservedFieldNonzero := by decide

theorem test_witness_DecPushOfUnpackedCharacter :
    fooState.status.keyClosed = true ∧
      (classify 0x31 = none ∧ State.reset.status.keyClosed = false ∧ State.reset.ctrl.strict = true) ∧
      (classify 0x40 = none ∧ classify 0x5B = none ∧ classify 0x60 = none ∧ classify 0x7B = none ∧
        classify 0x38 = none) ∧ (Ctrl.ofWord 0x00000A00).strict = false := by decide

/-- One witness for each of the three outcomes: no byte, a byte stored, a byte dropped. -/
theorem test_witness_DecPushPacksSymbol :
    classify 0x4D = some 12 ∧
      (State.reset.params.wf = true ∧ State.reset.status.keyClosed = false ∧
        State.reset.acc.toNat < 2 ^ State.reset.nbits.toNat ∧ State.reset.keybuf.wf = true ∧
        State.reset.nbits.toNat + 5 < 8) ∧
      (let s := { State.reset with acc := 0x0C, nbits := 5 }
       s.acc.toNat < 2 ^ s.nbits.toNat ∧ ¬s.nbits.toNat + 5 < 8 ∧ s.keyLen.toNat < s.params.keyMaxBytes) ∧
      (let s := { State.reset with acc := 0x7F, nbits := 7, keyLen := 64 }
       s.acc.toNat < 2 ^ s.nbits.toNat ∧ ¬s.nbits.toNat + 5 < 8 ∧ ¬s.keyLen.toNat < s.params.keyMaxBytes) := by decide

theorem test_witness_PushedSecretDecodesLikeTheSource :
    State.reset.params.wf = true ∧ State.reset = State.resetWith State.reset.params ∧
      (∃ s0, exec .decClear s0 = .next State.reset) ∧
      5 * (symbolValues [0x4D, 0x5A, 0x31, 0x58, 0x57, 0x36]).length / 8 ≤ State.reset.params.keyMaxBytes ∧
      State.reset.ctrl.strict = true ∧ classify 0x31 = none :=
  ⟨by decide, rfl, ⟨State.reset, rfl⟩, by decide, rfl, by decide⟩

theorem test_witness_OverlongSecretIsRejected :
    let p := { Params.default with keyMaxBytes := 1 }
    p.wf = true ∧ State.resetWith p = State.resetWith (State.resetWith p).params ∧
      p.keyMaxBytes < 5 * (symbolValues [0x4D, 0x5A, 0x58, 0x57, 0x36]).length / 8 :=
  ⟨by decide, rfl, by decide⟩

theorem test_witness_DecodingIsDeterministic :
    State.reset.params = fooState.params ∧ State.reset.ctrl = fooState.ctrl ∧ State.reset ≠ fooState := by decide

theorem test_witness_TotpWithoutValidKeyFails : State.reset.status.keyValid = false := rfl

theorem test_witness_TotpGenerateCommitsTheCode :
    fooState.status.keyValid = true ∧ fooState.params.digestFaultPossible = false ∧ 1 ≤ fooState.timeStep.toNat := by
  decide

theorem test_witness_TotpDigestDrawDecides :
    let s := { fooState with params := { Params.default with digestFaultPossible := true } }
    s.status.keyValid = true ∧ s.params.digestFaultPossible = true := by decide

/-- The ends of the ranges: TIMESTEP 1 and 2^32-1, DIGITS 1 and 10. -/
theorem test_witness_CommittedValuesInRange :
    (1 ≤ (1 : Word).toNat ∧ 1 ≤ (0xFFFFFFFF : Word).toNat) ∧ (1 ≤ (1 : Word).toNat ∧ (10 : Word).toNat ≤ 10) ∧
      (60 : DWord).toNat % (30 : Word).toNat = 0 := by decide

theorem test_witness_SameStepSameCode :
    1 ≤ (30 : Word).toNat ∧ (30 : DWord).toNat / (30 : Word).toNat = (59 : DWord).toNat / (30 : Word).toNat ∧
      (30 : DWord).toNat ≤ (59 : DWord).toNat := by decide

theorem test_witness_NextStepCountsOneMore :
    1 ≤ (30 : Word).toNat ∧ (59 : DWord).toNat + (30 : Word).toNat < 2 ^ 64 := by decide

theorem test_witness_DecIsTheDecimalString : 42 < 10 ^ 6 ∧ 0 < 10 ^ 0 := by decide

/-- Both clauses at the last character and the first byte after it, and DIGITS = 10. -/
theorem test_witness_CodeStringPlacement :
    (6 : Word).toNat ≤ 10 ∧ 5 < (6 : Word).toNat ∧ (6 : Word).toNat ≤ 6 ∧ (6 : Nat) < 12 ∧ (10 : Word).toNat ≤ 10 ∧
      9 < (10 : Word).toNat ∧ (10 : Word).toNat ≤ 11 ∧ (11 : Nat) < 12 := by decide

theorem test_witness_CounterMessageIsBigEndian : (0 : Nat) < 8 ∧ (7 : Nat) < 8 := by decide

theorem test_witness_Sha1PaddingShape : (55 + 1 + 0) % 64 = 56 ∧ (56 + 1 + 63) % 64 = 56 := by decide

theorem test_witness_HmacKeyAndBlockSizes :
    (List.replicate 64 (0 : Byte)).length ≤ 64 ∧ 64 < (List.replicate 65 (0 : Byte)).length ∧
      (be64 1).length = 8 ∧ (List.replicate 20 (0 : Byte)).length = 20 := by decide

theorem test_witness_PlatformResetIsSoftReset :
    (withProgram [.platformReset]).blockTurn = false ∧
      (withProgram [.platformReset]).hostStmt = some .platformReset := by decide

/-- One input for each of the four outcomes, SOFT_RESET while busy included. -/
theorem test_witness_CmdWriteOrderOfTests :
    waitingState.status.busy = true ∧ State.reset.status.busy = false ∧
      (∃ r ∈ opcodeTable, r.accepts 0x0000FF02 = true) ∧ ¬(∃ r ∈ opcodeTable, r.accepts 0x00000000 = true) := by decide

theorem test_witness_StepRunsTheDecodedCommand :
    (let s := { waitingState with delay := 0 }
     s.pending = some 0x00004102 ∧ decode 0x00004102 = .instr (.decPush 0x41) ∧ Instr.decPush 0x41 ≠ .softReset ∧
       s.delay = 0) ∧
      (let s := { waitingState with host := { program := [], pc := 0, vars := [] } }
       s.delay = 2 ∧ s.hostStmt = none) ∧
      (let s := withProgram [cmdStmt Params.default .softReset]
       s.blockTurn = false ∧ s.hostStmt = some (.wr (regAccess s.params .cmd) 0x000000FF)) := by decide

theorem test_witness_CommandsKeepTheRest : Instr.decFinish ≠ .softReset ∧ Instr.decClear ≠ .totpGenerate := by decide

theorem test_witness_BusyWritesAreDiscarded :
    waitingState.status.busy = true ∧ (0x00000001 : Word) ≠ 0x000000FF ∧
      0x01C ∉ [0x000, 0x004, 0x008, 0x00C, 0x010, 0x014, 0x018] ∧ 0x018 ∈ [0x000, 0x00C, 0x010, 0x014, 0x018] := by
  decide

theorem test_witness_CtrlWriteTakesThreeFields : State.reset.status.busy = false := rfl

/-- The ends of both ranges: 0 and 1, 2^32-1. -/
theorem test_witness_TimeStepWrite :
    State.reset.status.busy = false ∧ (0 : Word).toNat = 0 ∧ (1 : Word).toNat ≠ 0 ∧ (0xFFFFFFFF : Word).toNat ≠ 0 := by
  decide

/-- The ends of the range: 0 and 11 outside, 1 and 10 inside. -/
theorem test_witness_DigitsWrite :
    State.reset.status.busy = false ∧ ¬1 ≤ (0 : Word).toNat ∧ 1 ≤ (1 : Word).toNat ∧ (10 : Word).toNat ≤ 10 ∧
      ¬(11 : Word).toNat ≤ 10 := by decide

theorem test_witness_NowIsTwoRegisters : State.reset.status.busy = false := rfl

theorem test_witness_ReservedReadsZeroIgnoresWrites : 0x060 ≤ 0x060 ∧ 0x060 ≤ 0x0FC ∧ 0x0FC ≤ 0x0FC := by decide

theorem test_witness_ReadOnlyRegistersIgnoreWrites :
    Reg.keyLen ∉ [.ctrl, .status, .cmd, .timeStep, .digits, .nowLo, .nowHi] ∧
      Reg.key 63 ∉ [.ctrl, .status, .cmd, .timeStep, .digits, .nowLo, .nowHi] := by decide

/-- A byte write at the window's last byte, and an unaligned 32-bit read. -/
theorem test_witness_UnsupportedAccessFaults :
    (let s := withProgram [.wr { addr := 0x1FF, width := .w8 } 0]
     s.blockTurn = false ∧ s.hostStmt = some (.wr { addr := 0x1FF, width := .w8 } 0) ∧ s.params.base ≤ 0x1FF ∧
       0x1FF < s.params.base + 0x200 ∧ Width.w8 ≠ .w32) ∧
      (let s := withProgram [.rd { addr := 0x002, width := .w32 } 3]
       s.blockTurn = false ∧ s.hostStmt = some (.rd { addr := 0x002, width := .w32 } 3) ∧
         (0x002 - s.params.base) % 4 ≠ 0) := by decide

theorem test_witness_HostReadHasNoSideEffect :
    let s := withProgram [.rd { addr := 0 + 0x1FC, width := .w32 } 3]
    s.blockTurn = false ∧ 0x1FC < 0x200 ∧ 0x1FC % 4 = 0 ∧
      s.hostStmt = some (.rd { addr := s.params.base + 0x1FC, width := .w32 } 3) := by decide

theorem test_witness_HostWriteAppliesTheRegisterWrite :
    let s := withProgram [.wr { addr := 0 + 0x00C, width := .w32 } 60]
    s.blockTurn = false ∧ 0x00C < 0x200 ∧ 0x00C % 4 = 0 ∧
      s.hostStmt = some (.wr { addr := s.params.base + 0x00C, width := .w32 } 60) := by decide

/-- A host at a branch on variable 0, which holds `v`; label 4 stands at position 1 only. -/
def branchState (st : HostStmt) (v : Word) : State :=
  { State.reset with host := { program := [st, .label 4], pc := 0, vars := [(0, v)] } }

/-- Each of the four clauses: not taken and taken, for BNZ and for BZ, under the mask 1. -/
theorem test_witness_HostBranchesFollowTheMask :
    (∀ st v, (branchState st v).blockTurn = false ∧ (branchState st v).hostStmt = some st ∧
      (branchState st v).host.program[1]? = some (.label 4) ∧ getVariable (branchState st v).host.vars 0 = v) ∧
      (∀ j, (branchState (.bnz 0 1 4) 3).host.program[j]? = some (.label 4) → j = 1) ∧
      (∀ j, (branchState (.bz 0 1 4) 2).host.program[j]? = some (.label 4) → j = 1) ∧
      (3 : Word) &&& 1 ≠ 0 ∧ (2 : Word) &&& 1 = 0 := by
  refine ⟨fun st v => ⟨rfl, rfl, rfl, rfl⟩, fun j h => ?_, fun j h => ?_, by decide, by decide⟩
  · match j, h with
    | 1, _ => rfl
    | j + 2, h => simp [branchState] at h
  · match j, h with
    | 1, _ => rfl
    | j + 2, h => simp [branchState] at h

/-- A shown byte, the first byte not shown, the last byte of the window. -/
theorem test_witness_KeyWindowShowsTheKey :
    fooState.keyLen.toNat ≤ fooState.params.keyMaxBytes ∧ fooState.params.keyReadable = true ∧
      4 * (0 : Fin 64).val + 2 < fooState.keyLen.toNat ∧ ¬4 * (0 : Fin 64).val + 3 < fooState.keyLen.toNat ∧
      fooState.params.keyMaxBytes ≤ 4 * (63 : Fin 64).val + 3 := by decide

theorem test_witness_UnreadableKeyIsHiddenFromTheHost :
    { fooState with params := { Params.default with keyReadable := false } }.params.keyReadable = false := rfl

/-- The invariant of a state with an empty key buffer, zero results and nothing odd, from its plain parts. -/
theorem waitingState_inv : Inv waitingState where
  params_legal := by decide
  keyLen_le := by decide
  keybuf_wf := by decide
  keybuf_tail := fun _ _ => rfl
  acc_lt := by decide
  closed_empty := by decide
  open_plain := by decide
  valid_clean := by decide
  timeStep_pos := by decide
  digits_legal := by decide
  busy_iff := by decide
  pending_legal := fun w h => by
    obtain rfl : (0x00004102 : Word) = w := Option.some.inj h
    exact ⟨.decPush 0x41, by decide, rfl⟩
  generate_invalid := by decide
  results_whole := .inl rfl
  results_valid := fun h => absurd h (by decide)
  idle_delay := by decide

/-- The same for a decoder with a rejected character and a DEC_CLEAR about to be performed. -/
def rejectedState : State :=
  { State.reset with
    pending := some 0x00000001
    status := { Status.reset with busy := true, errInvalidSecret := true } }

theorem rejectedState_inv : Inv rejectedState where
  params_legal := by decide
  keyLen_le := by decide
  keybuf_wf := by decide
  keybuf_tail := fun _ _ => rfl
  acc_lt := by decide
  closed_empty := by decide
  open_plain := by decide
  valid_clean := by decide
  timeStep_pos := by decide
  digits_legal := by decide
  busy_iff := by decide
  pending_legal := fun w h => by
    obtain rfl : (0x00000001 : Word) = w := Option.some.inj h
    exact ⟨.decClear, by decide, rfl⟩
  generate_invalid := by decide
  results_whole := .inl rfl
  results_valid := fun h => absurd h (by decide)
  idle_delay := by decide

theorem test_witness_StepKeepsInvariant : Inv waitingState ∧ ∃ t, step waitingState = .next t :=
  ⟨waitingState_inv, _, rfl⟩

theorem test_witness_ResetMeetsInvariant : Params.wf Params.default = true := by decide

theorem test_witness_InputsStayWhilePending :
    Inv waitingState ∧ ∃ t, step waitingState = .next t ∧ waitingState.pending = some 0x00004102 ∧
      t.pending = some 0x00004102 :=
  ⟨waitingState_inv, _, rfl, rfl, rfl⟩

theorem test_witness_OnlyGenerateMakesAResult :
    ∃ t, step (State.place 0x00000010 0 emptyKeyState) = .next t ∧
      (State.place 0x00000010 0 emptyKeyState).status.resultValid = false ∧ t.status.resultValid = true :=
  ⟨_, rfl, rfl, rfl⟩

/-- Cleared by a STATUS write of 1 to bit 8, and by a SOFT_RESET write. -/
theorem test_witness_ErrorBitsAreSticky :
    (let s := { withProgram [wrReg Params.default .status 0x00000100] with
        status := { Status.reset with errNoKey := true } }
     ∃ t, step s = .next t ∧ s.status.has .noKey = true ∧ t.status.has .noKey = false) ∧
      (let s := { withProgram [cmdStmt Params.default .softReset] with
          status := { Status.reset with errBusy := true } }
       ∃ t, step s = .next t ∧ s.status.has .busy = true ∧ t.status.has .busy = false) := by
  constructor
  · exact ⟨_, rfl, rfl, rfl⟩
  · exact ⟨_, rfl, rfl, rfl⟩

theorem test_witness_KeyFlagsAreSticky :
    Inv rejectedState ∧ ∃ t, step rejectedState = .next t ∧ rejectedState.status.errInvalidSecret = true ∧
      t.status.errInvalidSecret = false :=
  ⟨rejectedState_inv, _, rfl, rfl, rfl⟩

theorem test_witness_NoCodeFromARejectedSecret :
    Inv rejectedState ∧ rejectedState.status.errInvalidSecret = true :=
  ⟨rejectedState_inv, rfl⟩

theorem test_witness_ParametersNeverChange : ∃ t, step waitingState = .next t := ⟨_, rfl⟩

theorem test_witness_PendingCommandIsPerformed : Inv waitingState ∧ waitingState.pending = some 0x00004102 :=
  ⟨waitingState_inv, rfl⟩

/-- The ends of KEY_MAX_BYTES, and one position of each kind in PARAMS. -/
theorem test_witness_ReadsShowTheFields :
    Params.wf { Params.default with keyMaxBytes := 1 } = true ∧
      Params.wf { Params.default with keyMaxBytes := 256 } = true ∧ (256 : Nat).testBit 8 = true := by decide

/-- 10 R37: "256 reads as 0x100", bit 16 KEY_READABLE, bit 17 DIGEST_FAULT_POSSIBLE. -/
theorem test_params_read :
    readOffset (State.resetWith { base := 0x200, keyMaxBytes := 256, keyReadable := false, digestFaultPossible := true })
      0x03C = 0x00020100 := by decide

end Sys2Proof.Tests
end

/-! ## Proofs: the fields of a decoded word -/

namespace Sys2Proof

/-- A word with a zero reserved field is made of its two other fields (30 R80). -/
theorem commandWord_fields {w : Word} (h : rsvField w = 0) : commandWord (argField w) (opcField w) = w := by
  have hw := word_toNat_fields w
  rw [h] at hw
  exact BitVec.eq_of_toNat_eq (by rw [commandWord_toNat, hw]; simp)

/-- A command without an operand is read only from a zero ARG (30 R80). -/
theorem withoutArg_eq_instr {w : Word} {i j : Instr} : withoutArg w j = .instr i ↔ argField w = 0 ∧ j = i := by
  by_cases ha : argField w = 0#8
  · simp [withoutArg, ha]
  · simp [withoutArg, ha]

/-- A word that decodes to a command is that command's word (30 R81). -/
theorem eq_encode_of_decode {w : Word} {i : Instr} (h : decode w = .instr i) : w = encode i := by
  unfold decode at h
  split at h
  · cases h
  rename_i hr
  rw [← commandWord_fields (not_not.1 hr)]
  split_ifs at h with h1 h2 h3 h4 h5
  · obtain ⟨ha, rfl⟩ := withoutArg_eq_instr.1 h
    rw [ha, h1, encode]
  · cases h
    rw [h2, encode]
  · obtain ⟨ha, rfl⟩ := withoutArg_eq_instr.1 h
    rw [ha, h3, encode]
  · obtain ⟨ha, rfl⟩ := withoutArg_eq_instr.1 h
    rw [ha, h4, encode]
  · obtain ⟨ha, rfl⟩ := withoutArg_eq_instr.1 h
    rw [ha, h5, encode]

namespace Machine

/-- A legal word other than SOFT_RESET's can be pending (43 R160). -/
theorem pendable_of_decode {w : Word} {i : Instr} (hd : decode w = .instr i) (hw : w ≠ 0x000000FF) :
    pendable i = true := by
  cases i with
  | softReset => exact absurd (eq_encode_of_decode hd) hw
  | decClear | decPush c | decFinish | totpGenerate => rfl

end Machine
end Sys2Proof

/-! ## Proofs: what an update of the state leaves of STATUS and of the invariant -/

namespace Sys2Proof.Machine

/-- The bits 7:0 of STATUS are the same: all that the block itself reads of it (10 R24). -/
structure Status.SameLow (t u : Status) : Prop where
  busy : u.busy = t.busy
  resultValid : u.resultValid = t.resultValid
  keyClosed : u.keyClosed = t.keyClosed
  keyValid : u.keyValid = t.keyValid
  errInvalidSecret : u.errInvalidSecret = t.errInvalidSecret
  warnCharSkipped : u.warnCharSkipped = t.warnCharSkipped
  errKeyOverflow : u.errKeyOverflow = t.errKeyOverflow
  warnDegenerateKey : u.warnDegenerateKey = t.warnDegenerateKey

theorem Status.SameLow.refl (t : Status) : t.SameLow t := ⟨rfl, rfl, rfl, rfl, rfl, rfl, rfl, rfl⟩

/-- `set ERR_X` keeps the bits 7:0 (60 R170). -/
theorem Status.sameLow_set (t : Status) (e : ErrBit) : t.SameLow (t.set e) := by constructor <;> simp

/-- A write-1-to-clear keeps the bits 7:0 (10 R25). -/
theorem Status.sameLow_clearBy (t : Status) (v : Word) : t.SameLow (t.clearBy v) := by constructor <;> rfl

section Inv
variable {s : State} (h : Inv s)
include h

/-- The invariant reads STATUS in its bits 7:0 only. -/
theorem Inv.withStatus {u : Status} (hu : s.status.SameLow u) : Inv { s with status := u } := { h with
  closed_empty := fun hc => h.closed_empty (hu.keyClosed ▸ hc)
  open_plain := fun hc => by
    rw [hu.keyValid, hu.warnDegenerateKey]
    exact h.open_plain (hu.keyClosed ▸ hc)
  valid_clean := fun hv => by
    rw [hu.errInvalidSecret, hu.errKeyOverflow]
    exact h.valid_clean (hu.keyValid ▸ hv)
  busy_iff := hu.busy.trans h.busy_iff
  generate_invalid := fun hp => hu.resultValid.trans (h.generate_invalid hp)
  results_valid := fun hr => h.results_valid (hu.resultValid ▸ hr) }

theorem Inv.raise (e : ErrBit) : Inv (s.raise e) := h.withStatus (s.status.sameLow_set e)

/-- The count of draws is the model's own. -/
theorem Inv.drawn : Inv s.drawn := { h with }

theorem Inv.hostTick : Inv s.hostTick := { h with
  idle_delay := fun hp => by rw [State.hostTick_delay, h.idle_delay hp] }

theorem Inv.assign (t : Nat) (v : Word) : Inv (s.assign t v) := { h with }

theorem Inv.goto (i : Nat) : Inv (s.goto i) := { h with }

theorem Inv.withCtrl (c : Ctrl) : Inv { s with ctrl := c } := { h with }

theorem Inv.withNowLo (v : Word) : Inv { s with nowLo := v } := { h with }

theorem Inv.withNowHi (v : Word) : Inv { s with nowHi := v } := { h with }

theorem Inv.withTimeStep {v : Word} (hv : v ≠ 0) : Inv { s with timeStep := v } := { h with
  timeStep_pos := by
    have : v.toNat ≠ 0 := by simpa [BitVec.toNat_eq] using hv
    exact Nat.one_le_iff_ne_zero.2 this }

theorem Inv.withDigits {v : Word} (hv : 1 ≤ v ∧ v ≤ 10) : Inv { s with digits := v } := { h with
  digits_legal := by simpa [BitVec.le_def] using hv }

/-- The reset state meets the invariant for the parameters it keeps (70 R190). -/
theorem Inv.softReset : Inv s.softReset where
  params_legal := h.params_legal
  keyLen_le := Nat.zero_le _
  keybuf_wf := rfl
  keybuf_tail _ _ := rfl
  acc_lt := Nat.one_pos
  closed_empty := nofun
  open_plain _ := ⟨rfl, rfl⟩
  valid_clean := nofun
  timeStep_pos := show 1 ≤ (30 : Word).toNat by decide
  digits_legal := show 1 ≤ (6 : Word).toNat ∧ (6 : Word).toNat ≤ 10 by decide
  busy_iff := rfl
  pending_legal := nofun
  generate_invalid := nofun
  results_whole := .inl rfl
  results_valid := nofun
  idle_delay _ := rfl

/-- Acceptance of a legal word other than SOFT_RESET's (43 R160). -/
theorem Inv.accept {w : Word} {i : Instr} (hd : decode w = .instr i) (hp : pendable i = true) : Inv (s.accept w) :=
  { h with
    busy_iff := rfl
    pending_legal := fun w' hw => ⟨i, Option.some.inj hw ▸ hd, hp⟩
    generate_invalid := fun hw => by
      obtain rfl : w = 0x00000010 := Option.some.inj hw
      simp
    results_valid := fun hr => h.results_valid (Bool.and_eq_true_iff.1 hr).1
    idle_delay := nofun }

/-- The end of a performance (43 R161). -/
theorem Inv.retire : Inv s.retire := { h with
  busy_iff := rfl
  pending_legal := nofun
  generate_invalid := nofun
  idle_delay := fun _ => rfl }

/-- `fail(E)` (41 R121). -/
theorem Inv.fail (e : ErrBit) : Inv (s.fail e) := { h.raise e with
  generate_invalid := fun _ => rfl
  results_whole := .inl rfl
  results_valid := nofun }

/-- `commit` of one performance's outputs, with nothing pending any more (41 R128). -/
theorem Inv.commit {r : Results} (hp : s.pending = none) (hr : r.generated s.params.keyMaxBytes) : Inv (s.commit r) :=
  { h with
    generate_invalid := fun hg => by
      rw [State.commit_pending, hp] at hg
      cases hg
    results_whole := .inr hr
    results_valid := fun _ => hr }

/-- What TOTP_GENERATE computes is one performance's outputs (41 R120). -/
theorem Inv.totpResults_generated :
    (totpResults s.key s.now s.timeStep s.digits).generated s.params.keyMaxBytes := by
  obtain ⟨hd, hd'⟩ := h.digits_legal
  exact ⟨s.key, s.now, s.timeStep, s.digits, s.key_length.trans_le h.keyLen_le, h.timeStep_pos, hd, hd', rfl⟩

/-- A decoder that is open has no valid key (40 R100). -/
theorem Inv.keyValid_of_open (hc : s.status.keyClosed = false) : s.status.keyValid = false := (h.open_plain hc).1

/-- DEC_CLEAR (40 R100). -/
theorem Inv.decClear :
    Inv { s with acc := 0, nbits := 0, keybuf := [], keyLen := 0, status := s.status.clearDecoder } := { h with
  keyLen_le := Nat.zero_le _
  keybuf_wf := rfl
  keybuf_tail := fun _ _ => rfl
  acc_lt := Nat.one_pos
  closed_empty := nofun
  open_plain := fun _ => ⟨rfl, rfl⟩
  valid_clean := nofun }

/-- A character outside the alphabet (40 R101). -/
theorem Inv.rejectChar (hc : s.status.keyClosed = false) : Inv s.rejectChar := by
  have hv : s.status.keyValid = true → False := by simp [h.keyValid_of_open hc]
  unfold State.rejectChar
  split
  · exact { h with valid_clean := fun hv' => (hv hv').elim }
  · exact { h with }

/-- DEC_FINISH of an open decoder (40 R104). -/
theorem Inv.finishedState : Inv (finishedState s) := { h with
  acc_lt := Nat.one_pos
  closed_empty := fun _ => rfl
  open_plain := nofun
  valid_clean := fun hv => by
    simp only [Machine.finishedState, Bool.and_eq_true, Bool.not_eq_true'] at hv
    exact hv.1 }

/-- A produced byte, stored or dropped (40 R103). -/
theorem Inv.appendKeyByte (hc : s.status.keyClosed = false) (b : Byte) : Inv (s.appendKeyByte b) := by
  unfold State.appendKeyByte
  split
  · rename_i hlt
    have hmax := h.params_legal
    simp only [Params.wf, Bool.and_eq_true, decide_eq_true_eq] at hmax
    have hlen : (s.keyLen + 1).toNat = s.keyLen.toNat + 1 := by
      rw [BitVec.toNat_add]
      simp
      omega
    exact { h with
      keyLen_le := by
        simp only [hlen]
        omega
      keybuf_wf := Memory.write_wf h.keybuf_wf _ _
      keybuf_tail := fun i hi => by
        simp only [hlen] at hi
        rw [Memory.read_write_other b (by omega)]
        exact h.keybuf_tail i (by omega) }
  · exact { h with valid_clean := fun hv => by simp [h.keyValid_of_open hc] at hv }

/-- With `n` pending bits the packed value is below `2^n` (40 R103). -/
theorem Inv.packedBits_lt (v : BitVec 5) : (packedBits s.acc v).toNat < 2 ^ (s.nbits.toNat + 5) := by
  have := h.acc_lt
  have := v.isLt
  rw [packedBits_toNat, pow_add]
  omega

end Inv

@[simp] theorem State.appendKeyByte_status_keyClosed (s : State) (b : Byte) :
    (s.appendKeyByte b).status.keyClosed = s.status.keyClosed := by
  unfold State.appendKeyByte
  split <;> rfl

/-- `pack` with fewer than 8 pending bits only collects them (40 R103). -/
theorem State.pack_of_lt {s : State} (v : BitVec 5) (hn : s.nbits.toNat + 5 < 8) :
    s.pack v = { s with
      acc := (packedBits s.acc v).setWidth 7
      nbits := BitVec.ofNat 3 (s.nbits.toNat + 5) } := if_neg (Nat.not_le.2 hn)

/-- `pack` with 8 or more pending bits produces a byte and keeps the rest (40 R103). -/
theorem State.pack_of_le {s : State} (v : BitVec 5) (hn : 8 ≤ s.nbits.toNat + 5) :
    s.pack v = { s.appendKeyByte ((packedBits s.acc v >>> (s.nbits.toNat + 5 - 8)).setWidth 8) with
      acc := BitVec.ofNat 7 ((packedBits s.acc v).toNat % 2 ^ (s.nbits.toNat + 5 - 8))
      nbits := BitVec.ofNat 3 (s.nbits.toNat + 5 - 8) } := if_pos hn

/-- A symbol into an open decoder (40 R103). -/
theorem Inv.pack {s : State} (h : Inv s) (hc : s.status.keyClosed = false) (v : BitVec 5) : Inv (s.pack v) := by
  have hlt := h.packedBits_lt v
  have hnbits := s.nbits.isLt
  rcases Nat.lt_or_ge (s.nbits.toNat + 5) 8 with hn | hn
  · have hn' : (BitVec.ofNat 3 (s.nbits.toNat + 5)).toNat = s.nbits.toNat + 5 := Nat.mod_eq_of_lt hn
    rw [State.pack_of_lt v hn]
    exact { h with
      acc_lt := by
        rw [hn', BitVec.toNat_setWidth]
        exact (Nat.mod_le _ _).trans_lt hlt
      closed_empty := fun hc' => by simp [hc] at hc' }
  · have hn' : (BitVec.ofNat 3 (s.nbits.toNat + 5 - 8)).toNat = s.nbits.toNat + 5 - 8 :=
      Nat.mod_eq_of_lt (by omega)
    rw [State.pack_of_le v hn]
    exact { h.appendKeyByte hc _ with
      acc_lt := by
        rw [hn', BitVec.toNat_ofNat]
        exact (Nat.mod_le _ _).trans_lt (Nat.mod_lt _ (Nat.two_pow_pos _))
      closed_empty := fun hc' => by simp [hc] at hc' }

/-- Every write of the host keeps the invariant. -/
theorem WriteEffect.inv {a : Nat} {v : Word} {s t : State} (he : WriteEffect a v s t) (h : Inv s) : Inv t := by
  cases he with
  | ignored => exact h
  | cleared _ => exact h.withStatus (s.status.sameLow_clearBy v)
  | busy _ => exact h.raise .busy
  | reset _ _ => exact h.softReset
  | illegal _ _ _ => exact h.raise .cmd
  | accepted _ hv _ hd => exact h.accept hd (pendable_of_decode hd hv)
  | ctrl _ _ => exact h.withCtrl _
  | timeStep _ _ hv => exact h.withTimeStep hv
  | digits _ _ hv => exact h.withDigits hv
  | refusedValue _ => exact h.raise .config
  | nowLo _ _ => exact h.withNowLo v
  | nowHi _ _ => exact h.withNowHi v

/-- Every statement of the host keeps the invariant. -/
theorem StmtEffect.inv {st : HostStmt} {s t : State} (he : StmtEffect st s t) (h : Inv s) : Inv t := by
  cases he with
  | write _ _ _ he => exact he.inv h
  | read _ _ _ => exact h.assign _ _
  | onward => exact h
  | jump i => exact h.goto i
  | reset _ => exact h.softReset

/-- Every performance of a command, with its end, keeps the invariant. A commit is taken after the retirement,
with which it commutes: RESULT_VALID may rise only once the TOTP_GENERATE is no longer pending. -/
theorem ExecEffect.inv_retire {i : Instr} {s u : State} (he : ExecEffect s i u) (h : Inv s) : Inv u.retire := by
  cases he with
  | cleared => exact h.decClear.retire
  | pushWhileClosed _ _ => exact (h.raise .sequence).retire
  | rejected hc _ => exact (h.rejectChar hc).retire
  | packed hc _ => exact (h.pack hc _).retire
  | finishWhileClosed _ => exact (h.raise .sequence).retire
  | finished _ => exact h.finishedState.retire
  | noKey _ => exact (h.fail .noKey).retire
  | digestFailed _ _ _ => exact (h.drawn.fail .digest).retire
  | committed _ _ => exact h.retire.commit rfl h.totpResults_generated
  | committedDrawn _ _ _ => exact h.drawn.retire.commit rfl h.totpResults_generated
  | reset => exact h.softReset.retire

/-- Settles O46: each effect of a step keeps `Inv`. -/
theorem stepKeepsInvariant : Obligations.StepKeepsInvariant := by
  intro s t h hst
  cases step_effect hst with
  | performed _ _ _ _ he => exact (exec_effect he).inv_retire h
  | hostRan _ _ he => exact he.inv h.hostTick
  | idle _ _ _ => exact h

end Sys2Proof.Machine

/-! ## Proofs: the register window -/

namespace Sys2Proof.Machine

/-- Every register is found at its offset (10 R20). -/
@[simp] theorem regAt_offsetOf (r : Reg) : regAt r.offsetOf = some r := by
  cases r with
  | digest k => revert k; decide
  | codeStr w => revert w; decide
  | key w => exact regAt_key w
  | _ => rfl

/-- Every register stands at a multiple of 4 in the window (10 R20). -/
theorem Reg.offsetOf_aligned (r : Reg) : r.offsetOf % 4 = 0 ∧ r.offsetOf < 0x200 := by
  cases r with
  | digest k | codeStr k | key k =>
    simp only [Reg.offsetOf]
    omega
  | _ => decide

theorem regAt_eq_some_iff {a : Nat} {r : Reg} : regAt a = some r ↔ a = r.offsetOf :=
  ⟨fun h => (regAt_offset h).symm, fun h => h ▸ regAt_offsetOf r⟩

/-- A read of a register's offset reads the register (20 R62). -/
theorem readOffset_offsetOf (s : State) (r : Reg) : readOffset s r.offsetOf = readReg s r := by
  rw [readOffset, regAt_offsetOf]

/-- A write to a register's offset writes the register (20 R62). -/
theorem writeOffset_offsetOf (r : Reg) (v : Word) (s : State) : writeOffset r.offsetOf v s = writeReg r v s := by
  rw [writeOffset, regAt_offsetOf]

theorem State.unlessBusy_of_busy {s : State} (hb : s.status.busy = true) (f : State → State) :
    s.unlessBusy f = s.raise .busy := if_pos hb

theorem State.unlessBusy_of_idle {s : State} (hb : s.status.busy = false) (f : State → State) :
    s.unlessBusy f = f s := if_neg (by simp [hb])

/-- The registers that BUSY = 1 guards, but for CMD (10 R45). -/
def configRegs : List Reg := [.ctrl, .timeStep, .digits, .nowLo, .nowHi]

/-- The registers a write can have an effect at (10 R20, R45). -/
def writableRegs : List Reg := [.ctrl, .status, .cmd, .timeStep, .digits, .nowLo, .nowHi]

theorem writeReg_config_of_busy {r : Reg} {s : State} (hr : r ∈ configRegs) (hb : s.status.busy = true) (v : Word) :
    writeReg r v s = .next (s.raise .busy) := by
  simp only [configRegs, List.mem_cons, List.not_mem_nil, or_false] at hr
  rcases hr with rfl | rfl | rfl | rfl | rfl <;> exact congrArg _ (State.unlessBusy_of_busy hb _)

theorem writeCmd_of_busy {v : Word} {s : State} (hv : v ≠ 0x000000FF) (hb : s.status.busy = true) :
    writeCmd v s = .next (s.raise .busy) := by
  rw [writeCmd, if_neg hv, if_pos hb]

theorem writeReg_readOnly {r : Reg} (hr : r ∉ writableRegs) (v : Word) (s : State) : writeReg r v s = .next s := by
  cases r with
  | ctrl | status | cmd | timeStep | digits | nowLo | nowHi => exact absurd (by decide) hr
  | _ => rfl

/-- A write at an offset of no writable register is ignored (10 R45, 20 R64). -/
theorem writeOffset_readOnly {a : Nat} (ha : a ∉ writableRegs.map Reg.offsetOf) (v : Word) (s : State) :
    writeOffset a v s = .next s := by
  unfold writeOffset
  split
  · rename_i r hr
    exact writeReg_readOnly (fun hm => ha (regAt_offset hr ▸ List.mem_map_of_mem hm)) v s
  · rfl

/-- Settles O32: a guarded register by its own write, any other offset because no writable register stands there. -/
theorem busyWritesAreDiscarded : Obligations.BusyWritesAreDiscarded := by
  intro s a v hb
  constructor
  · rintro (ha | ⟨rfl, hv⟩)
    · have ha' : a ∈ configRegs.map Reg.offsetOf := ha
      obtain ⟨r, hr, rfl⟩ := List.mem_map.1 ha'
      rw [writeOffset_offsetOf]
      exact writeReg_config_of_busy hr hb v
    · exact (writeOffset_offsetOf .cmd v s).trans (writeCmd_of_busy hv hb)
  · intro ha
    exact writeOffset_readOnly ha v s

/-- Settles O39, by the two directions of the map and the read-only arms of the write. -/
theorem readOnlyRegistersIgnoreWrites : Obligations.ReadOnlyRegistersIgnoreWrites := by
  refine ⟨fun a r => ?_, fun r => ⟨regAt_offsetOf r, r.offsetOf_aligned⟩, fun s r v =>
    ⟨readOffset_offsetOf s r, readOffset_offsetOf s .cmd, fun hr => ?_⟩⟩
  · rw [regAt_eq_some_iff]
    rfl
  · rw [writeOffset_offsetOf]
    exact writeReg_readOnly hr v s

/-- The STATUS a write-1-to-clear leaves, as a word (10 R25). -/
theorem Status.clearBy_toWord (t : Status) (v : Word) :
    (t.clearBy v).toWord = t.toWord &&& ~~~(v &&& 0x00003F00) := by
  refine BitVec.eq_of_getLsbD_eq fun k hk => ?_
  rw [Status.toWord_bit, BitVec.getLsbD_and, Status.toWord_bit, BitVec.getLsbD_not, BitVec.getLsbD_and]
  interval_cases k <;> simp [Status.clearBy]

/-- Settles O33, by the bits of STATUS before and after. -/
theorem statusWriteOneClears : Obligations.StatusWriteOneClears := by
  intro s v
  exact ⟨{ s with status := s.status.clearBy v }, writeOffset_offsetOf .status v s,
    Status.clearBy_toWord s.status v, rfl⟩

/-- CTRL reads back the three fields a write gave it, the rest 0 (10 R23). -/
theorem Ctrl.ofWord_toWord (v : Word) : (Ctrl.ofWord v).toWord = v &&& 0x0000FF03 := by
  refine BitVec.eq_of_getLsbD_eq fun k hk => ?_
  simp only [Ctrl.toWord, Ctrl.ofWord, append_bit, ofBool_bit, BitVec.getLsbD_and, BitVec.getLsbD_extractLsb']
  interval_cases k <;> simp

/-- Settles O34, by the word that `Ctrl.ofWord` reads back as. -/
theorem ctrlWriteTakesThreeFields : Obligations.CtrlWriteTakesThreeFields := by
  intro s v hb
  refine ⟨{ s with ctrl := Ctrl.ofWord v }, ?_, rfl, rfl, argField_toNat v, Ctrl.ofWord_toWord v, rfl⟩
  exact (writeOffset_offsetOf .ctrl v s).trans (congrArg _ (State.unlessBusy_of_idle hb _))

/-- Settles O35, by the guarded write while BUSY = 0. -/
theorem timeStepWrite : Obligations.TimeStepWrite := by
  refine ⟨fun p => readOffset_offsetOf _ .timeStep, fun s v => ⟨readOffset_offsetOf s .timeStep, fun hb => ?_⟩⟩
  have hw : writeOffset 0x00C v s = .next (writeTimeStep v s) :=
    (writeOffset_offsetOf .timeStep v s).trans (congrArg _ (State.unlessBusy_of_idle hb _))
  have h0 : v = 0 ↔ v.toNat = 0 := BitVec.toNat_eq
  rw [hw, writeTimeStep, apply_ite Host.Outcome.next]
  simp only [h0]
  rfl

/-- Settles O36, by the guarded write while BUSY = 0. -/
theorem digitsWrite : Obligations.DigitsWrite := by
  refine ⟨fun p => readOffset_offsetOf _ .digits, fun s v => ⟨readOffset_offsetOf s .digits, fun hb => ?_⟩⟩
  have hw : writeOffset 0x010 v s = .next (writeDigits v s) :=
    (writeOffset_offsetOf .digits v s).trans (congrArg _ (State.unlessBusy_of_idle hb _))
  rw [hw, writeDigits, apply_ite Host.Outcome.next]
  rfl

/-- Settles O37, by NOW as a number. -/
theorem nowIsTwoRegisters : Obligations.NowIsTwoRegisters := by
  intro s v
  have hnow := s.now_toNat
  have hlo := s.nowLo.isLt
  have hv := v.isLt
  refine ⟨?_, fun hb => ⟨⟨{ s with nowLo := v }, ?_, readOffset_offsetOf _ .nowLo, rfl, ?_⟩,
    ⟨{ s with nowHi := v }, ?_, readOffset_offsetOf _ .nowHi, rfl, ?_⟩⟩⟩
  · rw [show readOffset s 0x018 = s.nowHi from readOffset_offsetOf s .nowHi,
      show readOffset s 0x014 = s.nowLo from readOffset_offsetOf s .nowLo, hnow]
  · exact (writeOffset_offsetOf .nowLo v s).trans (congrArg _ (State.unlessBusy_of_idle hb _))
  · rw [State.now_toNat, hnow]
    simp only
    omega
  · exact (writeOffset_offsetOf .nowHi v s).trans (congrArg _ (State.unlessBusy_of_idle hb _))
  · rw [State.now_toNat, hnow]
    simp only
    omega

/-- Byte `j` of a packed word, most significant first (20 R63). -/
theorem packWord_byte (f : Nat → Byte) (w : Nat) {j : Nat} (hj : j < 4) :
    (packWord f w).toNat / 2 ^ (24 - 8 * j) % 2 ^ 8 = (f (4 * w + j)).toNat := by
  have h0 := (f (4 * w)).isLt
  have h1 := (f (4 * w + 1)).isLt
  have h2 := (f (4 * w + 2)).isLt
  have h3 := (f (4 * w + 3)).isLt
  rw [packWord_toNat]
  interval_cases j
  · rw [Nat.add_zero (4 * w)]
    omega
  all_goals omega

/-- Where the key is readable, its window shows `kb` byte by byte (10 R40). -/
theorem readOffset_key_of_readable {s : State} (hr : s.params.keyReadable = true) (w : Fin 64) :
    readOffset s (0x100 + 4 * w.val) = packWord s.shownKeyByte w.val :=
  (readOffset_offsetOf s (.key w)).trans (if_pos hr)

/-- Where the key is not readable, its window reads 0 (10 R40). -/
theorem readOffset_key_of_hidden {s : State} (hr : s.params.keyReadable = false) (w : Fin 64) :
    readOffset s (0x100 + 4 * w.val) = 0 :=
  (readOffset_offsetOf s (.key w)).trans (if_neg (by simp [hr]))

/-- Settles O44, by the bytes of a packed word; an index from KEY_MAX_BYTES on is also beyond KEY_LEN. -/
theorem keyWindowShowsTheKey : Obligations.KeyWindowShowsTheKey := by
  intro s w j hj hlen i shown
  have hshown (hr : s.params.keyReadable = true) :
      shown = if i < s.keyLen.toNat then (s.keybuf.read i).toNat else 0 := by
    rw [← BitVec.toNat_zero (w := 8), ← apply_ite BitVec.toNat]
    exact (congrArg (fun x : Word => x.toNat / 2 ^ (24 - 8 * j) % 2 ^ 8) (readOffset_key_of_readable hr w)).trans
      (packWord_byte s.shownKeyByte w.val hj)
  refine ⟨hshown, fun hi => ?_, fun hr => readOffset_key_of_hidden hr w⟩
  cases hr : s.params.keyReadable with
  | true => rw [hshown hr, if_neg (Nat.not_lt.2 (hlen.trans hi))]
  | false => simp [shown, readOffset_key_of_hidden hr w]

/-- The bits of DEC_ACC (10 R31). -/
theorem readReg_decAcc_bit (s : State) (k : Nat) :
    (readReg s .decAcc).getLsbD k =
      if k < 7 then s.acc.getLsbD k else if 8 ≤ k ∧ k < 11 then s.nbits.getLsbD (k - 8) else false := by
  simp only [readReg, append_bit, BitVec.getLsbD_zero, Nat.sub_sub]
  grind

/-- The bits of PARAMS (10 R37). -/
theorem Params.toWord_bit (p : Params) (k : Nat) :
    (Params.toWord p).getLsbD k =
      if k < 9 then p.keyMaxBytes.testBit k
      else if k = 16 then p.keyReadable
      else if k = 17 then p.digestFaultPossible
      else false := by
  simp only [Params.toWord, append_bit, ofBool_bit, BitVec.getLsbD_ofNat, Nat.sub_sub]
  split_ifs <;> simp <;> omega

/-- COUNTER_HI over COUNTER_LO is the counter (10 R32). -/
theorem readReg_counter_toNat (s : State) :
    (readReg s .counterHi).toNat * 2 ^ 32 + (readReg s .counterLo).toNat = s.results.counter.toNat := by
  have := s.results.counter.isLt
  simp only [readReg, BitVec.extractLsb'_toNat, Nat.shiftRight_eq_div_pow]
  omega

/-- Settles O55: each read is that of the register at the offset, then shown by its bits or its number. -/
theorem readsShowTheFields : Obligations.ReadsShowTheFields := by
  intro s
  have hread := readOffset_offsetOf s
  refine ⟨fun k => ?_, ?_, fun k => ?_, fun _ k => ?_, ?_, ?_, ?_, hread .codeBin, hread .remaining,
    hread (.digest 0), hread (.digest 1), hread (.digest 2), hread (.digest 3), hread (.digest 4),
    hread (.codeStr 0), hread (.codeStr 1), hread (.codeStr 2)⟩
  · rw [show readOffset s 0x004 = s.status.toWord from hread .status]
    exact Status.toWord_bit s.status k
  · rw [show readOffset s 0x01C = s.keyLen.setWidth 32 from hread .keyLen]
    exact BitVec.toNat_setWidth_of_le (by decide)
  · rw [show readOffset s 0x020 = readReg s .decAcc from hread .decAcc]
    exact readReg_decAcc_bit s k
  · rw [show readOffset s 0x03C = Params.toWord s.params from hread .params]
    exact Params.toWord_bit s.params k
  · rw [show readOffset s 0x028 = readReg s .counterHi from hread .counterHi,
      show readOffset s 0x024 = readReg s .counterLo from hread .counterLo]
    exact readReg_counter_toNat s
  · rw [show readOffset s 0x02C = s.results.offset.setWidth 32 from hread .offset]
    exact BitVec.toNat_setWidth_of_le (by decide)
  · rw [show readOffset s 0x030 = s.results.code31.setWidth 32 from hread .code31]
    exact BitVec.toNat_setWidth_of_le (by decide)

end Sys2Proof.Machine

/-! ## Proofs: what a step leaves unchanged -/

namespace Sys2Proof.Machine

@[simp] theorem State.appendKeyByte_params (s : State) (b : Byte) : (s.appendKeyByte b).params = s.params := by
  unfold State.appendKeyByte
  split <;> rfl

@[simp] theorem State.appendKeyByte_status_resultValid (s : State) (b : Byte) :
    (s.appendKeyByte b).status.resultValid = s.status.resultValid := by
  unfold State.appendKeyByte
  split <;> rfl

@[simp] theorem State.pack_params (s : State) (v : BitVec 5) : (s.pack v).params = s.params := by
  rcases Nat.lt_or_ge (s.nbits.toNat + 5) 8 with hn | hn
  · rw [State.pack_of_lt v hn]
  · rw [State.pack_of_le v hn, State.appendKeyByte_params]

@[simp] theorem State.pack_status_resultValid (s : State) (v : BitVec 5) :
    (s.pack v).status.resultValid = s.status.resultValid := by
  rcases Nat.lt_or_ge (s.nbits.toNat + 5) 8 with hn | hn
  · rw [State.pack_of_lt v hn]
  · rw [State.pack_of_le v hn, State.appendKeyByte_status_resultValid]

@[simp] theorem State.rejectChar_params (s : State) : s.rejectChar.params = s.params := by
  unfold State.rejectChar
  split <;> rfl

@[simp] theorem State.rejectChar_status_resultValid (s : State) :
    s.rejectChar.status.resultValid = s.status.resultValid := by
  unfold State.rejectChar
  split <;> rfl

/-! ### The parameters -/

theorem WriteEffect.params {a : Nat} {v : Word} {s t : State} (he : WriteEffect a v s t) : t.params = s.params := by
  cases he <;> rfl

theorem StmtEffect.params {st : HostStmt} {s t : State} (he : StmtEffect st s t) : t.params = s.params := by
  cases he with
  | write _ _ _ he => exact he.params
  | read _ _ _ | onward | jump _ | reset _ => rfl

theorem ExecEffect.params {i : Instr} {s u : State} (he : ExecEffect s i u) : u.params = s.params := by
  cases he with
  | rejected _ _ => exact s.rejectChar_params
  | packed _ _ => exact s.pack_params _
  | _ => rfl

theorem step_params {s t : State} (h : step s = .next t) : t.params = s.params := by
  cases step_effect h with
  | performed _ _ _ _ he => exact (exec_effect he).params
  | hostRan _ _ he => exact he.params
  | idle _ _ _ => rfl

/-- Settles O53, by the effects of a step. -/
theorem parametersNeverChange : Obligations.ParametersNeverChange := by
  intro s t h
  exact ⟨step_params h, congrArg Params.toWord (step_params h)⟩

/-! ### What a performance reads, while its command is pending -/

/-- Everything a performance of the pending command reads, the results and the command itself are the same
(10 R45 "Consequence"). -/
structure SameInputs (s t : State) : Prop where
  pending : t.pending = s.pending
  params : t.params = s.params
  config : SameConfig s t
  keyData : SameKeyData s t
  status : s.status.SameLow t.status
  results : t.results = s.results

/-- An update of STATUS that keeps its bits 7:0. -/
theorem SameInputs.withStatus {s : State} {u : Status} (hu : s.status.SameLow u) :
    SameInputs s { s with status := u } :=
  ⟨rfl, rfl, ⟨rfl, rfl, rfl, rfl, rfl⟩, ⟨rfl, rfl, rfl, fun _ => rfl⟩, hu, rfl⟩

theorem SameInputs.refl (s : State) : SameInputs s s := .withStatus (.refl s.status)

/-- While BUSY = 1 a write discards the pending command or changes none of its inputs (10 R45). -/
theorem WriteEffect.discards_or_sameInputs {a : Nat} {v : Word} {s t : State} (he : WriteEffect a v s t)
    (hb : s.status.busy = true) : t.pending = none ∨ SameInputs s t := by
  have hidle (hb' : s.status.busy = false) : t.pending = none ∨ SameInputs s t := by simp [hb] at hb'
  cases he with
  | ignored => exact .inr (.refl s)
  | cleared _ => exact .inr (.withStatus (s.status.sameLow_clearBy v))
  | busy _ => exact .inr (.withStatus (s.status.sameLow_set .busy))
  | reset _ _ => exact .inl rfl
  | illegal _ hb' _ | accepted _ _ hb' _ | ctrl _ hb' | timeStep _ hb' _ | digits _ hb' _ | refusedValue hb'
  | nowLo _ hb' | nowHi _ hb' => exact hidle hb'

/-- While BUSY = 1 a host statement discards the pending command or changes none of its inputs. -/
theorem StmtEffect.discards_or_sameInputs {st : HostStmt} {s t : State} (he : StmtEffect st s t)
    (hb : s.status.busy = true) : t.pending = none ∨ SameInputs s t := by
  cases he with
  | write _ _ _ he => exact he.discards_or_sameInputs hb
  | read _ _ _ | onward | jump _ => exact .inr { SameInputs.refl s with }
  | reset _ => exact .inl rfl

/-- A step with a command pending ends with none pending, or changes none of the command's inputs. -/
theorem step_discards_or_sameInputs {s t : State} {w : Word} (h : Inv s) (hst : step s = .next t)
    (hw : s.pending = some w) : t.pending = none ∨ SameInputs s t := by
  cases step_effect hst with
  | performed _ _ _ _ _ => exact .inl rfl
  | hostRan _ _ he =>
    have hb : s.hostTick.status.busy = true := h.busy_iff.trans (by rw [hw, Option.isSome_some])
    exact (he.discards_or_sameInputs hb).imp_right fun hsame => { hsame with }
  | idle _ _ _ => exact .inr (.refl s)

/-- Settles O48: a step that keeps a command pending did not discard it. -/
theorem inputsStayWhilePending : Obligations.InputsStayWhilePending := by
  intro s t w w' h hst hw hw'
  rcases step_discards_or_sameInputs h hst hw with hnone | hsame
  · rw [hw'] at hnone
    cases hnone
  · have hww : w' = w := Option.some.inj (by rw [← hw', hsame.pending, hw])
    have hstat := hsame.status
    exact ⟨hww, hsame.params, hsame.config, hsame.keyData, hstat.keyClosed, hstat.keyValid, hstat.errInvalidSecret,
      hstat.errKeyOverflow, hsame.results, hstat.resultValid⟩

/-! ### RESULT_VALID -/

/-- No host write raises RESULT_VALID (10 R24). -/
theorem WriteEffect.resultValid_before {a : Nat} {v : Word} {s t : State} (he : WriteEffect a v s t)
    (ht : t.status.resultValid = true) : s.status.resultValid = true := by
  cases he with
  | busy _ | illegal _ _ _ | refusedValue _ => exact (Status.set_resultValid _ _).symm.trans ht
  | reset _ _ => cases ht
  | accepted _ _ _ _ => exact (Bool.and_eq_true_iff.1 ht).1
  | _ => exact ht

/-- No host statement raises RESULT_VALID (10 R24). -/
theorem StmtEffect.resultValid_before {st : HostStmt} {s t : State} (he : StmtEffect st s t)
    (ht : t.status.resultValid = true) : s.status.resultValid = true := by
  cases he with
  | write _ _ _ he => exact he.resultValid_before ht
  | read _ _ _ | onward | jump _ => exact ht
  | reset _ => cases ht

/-- A performance that leaves RESULT_VALID = 1 found it so, or is a TOTP_GENERATE that committed (41 R128). -/
theorem ExecEffect.resultValid_cases {i : Instr} {s u : State} (he : ExecEffect s i u)
    (hu : u.status.resultValid = true) :
    s.status.resultValid = true ∨
      (i = .totpGenerate ∧ s.status.keyValid = true ∧ u.results = totpResults s.key s.now s.timeStep s.digits) := by
  cases he with
  | cleared | finished _ => exact .inl hu
  | pushWhileClosed _ _ | finishWhileClosed _ => exact .inl ((Status.set_resultValid _ _).symm.trans hu)
  | rejected _ _ => exact .inl (s.rejectChar_status_resultValid ▸ hu)
  | packed _ _ => exact .inl (s.pack_status_resultValid _ ▸ hu)
  | noKey _ | digestFailed _ _ _ | reset => cases hu
  | committed hv _ | committedDrawn hv _ _ => exact .inr ⟨rfl, hv, rfl⟩

/-- Settles O49: only a committing TOTP_GENERATE raises RESULT_VALID. -/
theorem onlyGenerateMakesAResult : Obligations.OnlyGenerateMakesAResult := by
  intro s t hst hs ht
  have hrise : ¬ s.status.resultValid = true := by simp [hs]
  cases step_effect hst with
  | performed hb hw hd _ he =>
    obtain ⟨rfl, hv, hr⟩ := ((exec_effect he).resultValid_cases ht).resolve_left hrise
    exact ⟨hb, hw.trans (congrArg some (eq_encode_of_decode hd)), hv, hr⟩
  | hostRan _ _ he => exact absurd (he.resultValid_before ht) hrise
  | idle _ _ _ => exact absurd ht hrise

end Sys2Proof.Machine

/-! ## Proofs: a key that is not readable is hidden from the host -/

namespace Sys2Proof.Machine

/-- The state with another key buffer. -/
def State.withKeybuf (m : Memory) (s : State) : State := { s with keybuf := m }

/-- Two outcomes that differ at most in the key buffer they leave. -/
inductive SameButKeybuf : Host.Outcome State Fault Refusal → Host.Outcome State Fault Refusal → Prop
  | next (t : State) (m : Memory) : SameButKeybuf (.next t) (.next (t.withKeybuf m))
  | fault (f : Fault) : SameButKeybuf (.fault f) (.fault f)
  | refused (r : Refusal) : SameButKeybuf (.refused r) (.refused r)

/-- With KEY_READABLE = 0 no register shows the key buffer (10 R40, R41). -/
theorem readReg_withKeybuf {s : State} (hr : s.params.keyReadable = false) (m : Memory) (r : Reg) :
    readReg (s.withKeybuf m) r = readReg s r := by
  cases r with
  | key w => exact (if_neg (by simp [State.withKeybuf, hr])).trans (if_neg (by simp [hr])).symm
  | digest k => fin_cases k <;> rfl
  | codeStr w => fin_cases w <;> rfl
  | _ => rfl

theorem readOffset_withKeybuf {s : State} (hr : s.params.keyReadable = false) (m : Memory) (a : Nat) :
    readOffset (s.withKeybuf m) a = readOffset s a := by
  unfold readOffset
  split
  · exact readReg_withKeybuf hr m _
  · rfl

/-- A guarded write commutes with the replacement of KEYBUF when the write itself does. -/
theorem State.unlessBusy_withKeybuf {f : State → State} {m : Memory} {s : State}
    (hf : f (s.withKeybuf m) = (f s).withKeybuf m) :
    (s.withKeybuf m).unlessBusy f = (s.unlessBusy f).withKeybuf m := by
  cases hb : s.status.busy with
  | true =>
    rw [State.unlessBusy_of_busy hb, State.unlessBusy_of_busy (s := s.withKeybuf m) hb]
    rfl
  | false => rw [State.unlessBusy_of_idle hb, State.unlessBusy_of_idle (s := s.withKeybuf m) hb, hf]

theorem writeTimeStep_withKeybuf (v : Word) (m : Memory) (s : State) :
    writeTimeStep v (s.withKeybuf m) = (writeTimeStep v s).withKeybuf m := by
  unfold writeTimeStep
  split <;> rfl

theorem writeDigits_withKeybuf (v : Word) (m : Memory) (s : State) :
    writeDigits v (s.withKeybuf m) = (writeDigits v s).withKeybuf m := by
  unfold writeDigits
  split <;> rfl

/-- A write to CMD is decided without KEYBUF; SOFT_RESET empties it (43 R160, R163). -/
theorem writeCmd_sameButKeybuf (v : Word) (m : Memory) (s : State) :
    SameButKeybuf (writeCmd v s) (writeCmd v (s.withKeybuf m)) := by
  have hb : (s.withKeybuf m).status.busy = s.status.busy := rfl
  unfold writeCmd
  rw [hb]
  split_ifs
  · exact .next s.softReset []
  · exact .next _ m
  · split <;> exact .next _ m

theorem writeReg_sameButKeybuf (r : Reg) (v : Word) (m : Memory) (s : State) :
    SameButKeybuf (writeReg r v s) (writeReg r v (s.withKeybuf m)) := by
  have guarded {f : State → State} (hf : f (s.withKeybuf m) = (f s).withKeybuf m) :
      SameButKeybuf (.next (s.unlessBusy f)) (.next ((s.withKeybuf m).unlessBusy f)) := by
    rw [State.unlessBusy_withKeybuf hf]
    exact .next _ m
  cases r with
  | cmd => exact writeCmd_sameButKeybuf v m s
  | ctrl | nowLo | nowHi => exact guarded rfl
  | timeStep => exact guarded (writeTimeStep_withKeybuf v m s)
  | digits => exact guarded (writeDigits_withKeybuf v m s)
  | status => exact .next { s with status := s.status.clearBy v } m
  | _ => exact .next s m

theorem writeOffset_sameButKeybuf (a : Nat) (v : Word) (m : Memory) (s : State) :
    SameButKeybuf (writeOffset a v s) (writeOffset a v (s.withKeybuf m)) := by
  unfold writeOffset
  split
  · exact writeReg_sameButKeybuf _ v m s
  · exact .next s m

theorem withAccess_sameButKeybuf (acc : Access) (m : Memory) (s : State)
    {k k' : Nat → Host.Outcome State Fault Refusal} (hk : ∀ a, SameButKeybuf (k a) (k' a)) :
    SameButKeybuf (withAccess acc s k) (withAccess acc (s.withKeybuf m) k') := by
  have hp : (s.withKeybuf m).params = s.params := rfl
  unfold withAccess
  rw [hp]
  split
  · exact hk _
  · exact .fault _
  · exact .refused _

theorem branch_sameButKeybuf (b : Bool) (l : Nat) (m : Memory) (s : State) :
    SameButKeybuf (branch b l s) (branch b l (s.withKeybuf m)) := by
  have hh : (s.withKeybuf m).host = s.host := rfl
  unfold branch
  rw [hh]
  split
  · split
    · exact .next _ m
    · exact .refused _
  · exact .next s m

theorem runStmt_sameButKeybuf {s : State} (hr : s.params.keyReadable = false) (st : HostStmt) (m : Memory) :
    SameButKeybuf (runStmt st s) (runStmt st (s.withKeybuf m)) := by
  cases st with
  | wr acc v => exact withAccess_sameButKeybuf acc m s fun a => writeOffset_sameButKeybuf a v m s
  | rd acc t =>
    refine withAccess_sameButKeybuf acc m s fun a => ?_
    rw [readOffset_withKeybuf hr]
    exact .next (s.assign t (readOffset s a)) m
  | label l => exact .next s m
  | bnz t w l | bz t w l => exact branch_sameButKeybuf _ l m s
  | platformReset => exact .next s.softReset []

/-- The host's step does not depend on a key buffer that is not readable. -/
theorem hostStep_sameButKeybuf {s : State} (hr : s.params.keyReadable = false) (m : Memory) :
    SameButKeybuf (hostStep s) (hostStep (s.withKeybuf m)) := by
  have hs : (s.withKeybuf m).hostStmt = s.hostStmt := rfl
  unfold hostStep
  rw [hs]
  split
  · exact .next s m
  · exact runStmt_sameButKeybuf (s := s.hostTick) hr _ m

theorem hostStep_params {s t : State} (h : hostStep s = .next t) : t.params = s.params := by
  unfold hostStep at h
  split at h
  · cases h
    rfl
  · exact (runStmt_effect h).params

/-- Settles O45: the host's step is the same up to KEYBUF, and no register shows KEYBUF. -/
theorem unreadableKeyIsHiddenFromTheHost : Obligations.UnreadableKeyIsHiddenFromTheHost := by
  intro s m hr
  refine ⟨readOffset_withKeybuf hr m, ?_⟩
  have hstep : SameButKeybuf (hostStep s) (hostStep { s with keybuf := m }) := hostStep_sameButKeybuf hr m
  have hparams (t : State) : hostStep s = .next t → t.params = s.params := hostStep_params
  generalize hostStep s = o, hostStep { s with keybuf := m } = o' at hstep hparams
  cases hstep with
  | next t m' =>
    have hr' : t.params.keyReadable = false := by rw [hparams t rfl, hr]
    exact ⟨rfl, readOffset_withKeybuf hr' m'⟩
  | fault f => rfl
  | refused r => rfl

end Sys2Proof.Machine

/-! ## Proofs: the window as the host's statements use it -/

namespace Sys2Proof.Machine

/-- No register stands at a reserved offset (10 R20). -/
theorem Reg.offsetOf_not_reserved (r : Reg) : r.offsetOf < 0x060 ∨ 0x0FC < r.offsetOf := by
  cases r with
  | digest k | codeStr k | key k =>
    simp only [Reg.offsetOf]
    omega
  | _ => decide

theorem regAt_reserved {a : Nat} (hlo : 0x060 ≤ a) (hhi : a ≤ 0x0FC) : regAt a = none := by
  refine Option.eq_none_iff_forall_ne_some.2 fun r hr => ?_
  have hoff : r.offsetOf = a := regAt_offset hr
  have := r.offsetOf_not_reserved
  omega

/-- A word reads 0 under a mask when it is 0 at every bit of the mask. -/
theorem and_eq_zero_of_bits {w m : Word} (h : ∀ k < 32, m.getLsbD k = true → w.getLsbD k = false) : w &&& m = 0 := by
  refine BitVec.eq_of_getLsbD_eq fun k hk => ?_
  cases hm : m.getLsbD k with
  | false => simp [hm]
  | true => simp [h k hk hm]

/-- A field that fills a register from bit 0 reads 0 under a mask that lies above it. -/
theorem setWidth_and_eq_zero {n : Nat} (x : BitVec n) {m : Word} (hm : m.setWidth n = 0) : x.setWidth 32 &&& m = 0 := by
  refine and_eq_zero_of_bits fun k hk hmk => ?_
  have hkn : ¬ k < n := fun hkn => by
    simpa [hkn, hmk] using congrArg (BitVec.getLsbD · k) hm
  simp [BitVec.getLsbD_of_ge x k (Nat.not_lt.1 hkn)]

/-- The reserved fields of CTRL, bits 7:2 and 31:16, read 0 (10 R23). -/
theorem Ctrl.toWord_reserved_bit (c : Ctrl) {k : Nat} (hk : 2 ≤ k ∧ k < 8 ∨ 16 ≤ k) : c.toWord.getLsbD k = false := by
  rcases hk with ⟨h2, h8⟩ | h16
  · rw [c.toWord_bit_low k h8, if_neg (by omega), if_neg (by omega)]
  · rw [BitVec.getLsbD, c.toWord_toNat]
    refine Nat.testBit_lt_two_pow (lt_of_lt_of_le ?_ (Nat.pow_le_pow_right two_pos h16))
    have := c.minKeyBytes.isLt
    have := c.minkeyEn.toNat_le
    have := c.strict.toNat_le
    omega

/-- The reserved field of STATUS, bits 31:14, reads 0 (10 R24). -/
theorem Status.toWord_reserved_bit (t : Status) {k : Nat} (hk : 14 ≤ k) : t.toWord.getLsbD k = false := by
  obtain ⟨j, rfl⟩ := Nat.exists_eq_add_of_le' hk
  exact t.toWord_bit (j + 14)

/-- A write to CTRL takes nothing from its reserved bits (10 R23). -/
theorem Ctrl.ofWord_mask (v : Word) : Ctrl.ofWord (v &&& 0x0000FF03) = Ctrl.ofWord v := by
  have hbyte : (v &&& 0x0000FF03).extractLsb' 8 8 = v.extractLsb' 8 8 := by
    refine BitVec.eq_of_getLsbD_eq fun k hk => ?_
    interval_cases k <;> simp
  rw [Ctrl.ofWord, Ctrl.ofWord, hbyte]
  simp

/-- A write to STATUS takes nothing from its bits outside 13:8 (10 R25). -/
theorem Status.clearBy_mask (v : Word) (t : Status) : t.clearBy (v &&& 0x00003F00) = t.clearBy v := by
  simp [Status.clearBy]

/-- Every reserved field of a register reads 0 (20 R64). -/
theorem readReg_reserved_eq_zero (s : State) :
    readReg s .ctrl &&& 0xFFFF00FC = 0 ∧ readReg s .status &&& 0xFFFFC000 = 0 ∧
      readReg s .keyLen &&& 0xFFFFFE00 = 0 ∧ readReg s .decAcc &&& 0xFFFFF880 = 0 ∧
      readReg s .offset &&& 0xFFFFFFF0 = 0 ∧ readReg s .code31 &&& 0x80000000 = 0 ∧
      readReg s .params &&& 0xFFFCFE00 = 0 := by
  refine ⟨and_eq_zero_of_bits fun k hk hm => ?ctrl, and_eq_zero_of_bits fun k hk hm => ?status,
    setWidth_and_eq_zero s.keyLen (by decide), and_eq_zero_of_bits fun k hk hm => ?decAcc,
    setWidth_and_eq_zero s.results.offset (by decide), setWidth_and_eq_zero s.results.code31 (by decide),
    and_eq_zero_of_bits fun k hk hm => ?params⟩
  case ctrl =>
    have hres : 2 ≤ k ∧ k < 8 ∨ 16 ≤ k := by revert k; decide
    exact s.ctrl.toWord_reserved_bit hres
  case status =>
    have hres : 14 ≤ k := by revert k; decide
    exact s.status.toWord_reserved_bit hres
  case decAcc =>
    have hres : k = 7 ∨ 11 ≤ k := by revert k; decide
    rw [readReg_decAcc_bit, if_neg (by omega), if_neg (by omega)]
  case params =>
    have hres : 9 ≤ k ∧ k < 16 ∨ 18 ≤ k := by revert k; decide
    refine (Params.toWord_bit s.params k).trans ?_
    rw [if_neg (by omega), if_neg (by omega), if_neg (by omega)]

/-- Settles O38: no register stands at a reserved offset, the reserved fields read 0 bit by bit, and the written word is
used only through its masked bits. -/
theorem reservedReadsZeroIgnoresWrites : Obligations.ReservedReadsZeroIgnoresWrites := by
  refine ⟨fun s a v hlo hhi => ?_, readReg_reserved_eq_zero, fun s v => ⟨?_, ?_, fun r hr => ?_⟩⟩
  · rw [readOffset, writeOffset, regAt_reserved hlo hhi]
    exact ⟨rfl, rfl⟩
  · have hw (x : Word) : writeOffset 0x000 x s = writeReg .ctrl x s := writeOffset_offsetOf .ctrl x s
    rw [hw, hw, writeReg, writeReg, Ctrl.ofWord_mask]
  · have hw (x : Word) : writeOffset 0x004 x s = writeReg .status x s := writeOffset_offsetOf .status x s
    rw [hw, hw, writeReg, writeReg, Status.clearBy_mask]
  · have hro : ∀ r ∈ [Reg.keyLen, .decAcc, .offset, .code31, .params], r ∉ writableRegs := by decide
    rw [writeOffset_offsetOf, writeReg_readOnly (hro r hr)]

/-- On the host's turn the step is the statement at its position (00 R12, 30 R86). -/
theorem step_of_hostStmt {s : State} {st : HostStmt} (hturn : s.blockTurn = false) (hst : s.hostStmt = some st) :
    step s = runStmt st s.hostTick := by
  rw [step, stepAgents, if_neg (by simp [hturn]), hostStep, hst]

/-- An access to the window that is not an aligned 32-bit one is unsupported (20 R61). -/
theorem target_unsupported {p : Params} {acc : Access} (hlo : p.base ≤ acc.addr) (hhi : acc.addr < p.base + 0x200)
    (hbad : acc.width ≠ .w32 ∨ (acc.addr - p.base) % 4 ≠ 0) : acc.target p = .unsupported := by
  rw [Access.target, if_neg (by omega), if_neg (not_and_or.2 hbad)]

/-- An unsupported access faults, naming itself, whatever it was for (20 R61). -/
theorem withAccess_unsupported {acc : Access} {s : State} (h : acc.target s.params = .unsupported)
    (k : Nat → Host.Outcome State Fault Refusal) : withAccess acc s k = .fault (.busAccessUnsupported acc) := by
  rw [withAccess, h]

/-- An aligned 32-bit access is sent on with its offset (20 R60). -/
theorem withAccess_aligned {a : Nat} (ha : a < 0x200) (h4 : a % 4 = 0) (s : State)
    (k : Nat → Host.Outcome State Fault Refusal) :
    withAccess { addr := s.params.base + a, width := .w32 } s k = k a := by
  rw [withAccess, target_aligned s.params ha h4]

/-- Settles O40: a write and a read both meet the check of the access before anything else. -/
theorem unsupportedAccessFaults : Obligations.UnsupportedAccessFaults := by
  intro s acc v t hturn hst hlo hhi hbad
  have hfault := withAccess_unsupported (s := s.hostTick) (target_unsupported hlo hhi hbad)
  rcases hst with hwr | hrd
  · exact (step_of_hostStmt hturn hwr).trans (hfault _)
  · exact (step_of_hostStmt hturn hrd).trans (hfault _)

/-- A host's passing to its next statement shows in no register. -/
theorem readOffset_hostTick (s : State) (a : Nat) : readOffset s.hostTick a = readOffset s a := rfl

/-- Settles O41, by the host's variables after an assignment. -/
theorem hostReadHasNoSideEffect : Obligations.HostReadHasNoSideEffect := by
  intro s a t hturn ha h4 hst
  refine ⟨s.hostTick.assign t (readOffset s a), ?_, getVariable_set_same s.host.vars t _,
    fun x hx => getVariable_set_other s.host.vars _ hx, rfl⟩
  rw [step_of_hostStmt hturn hst, ← readOffset_hostTick]
  exact withAccess_aligned ha h4 s.hostTick _

/-- A write, SOFT_RESET included, leaves the host as it is (30 R86). -/
theorem WriteEffect.host {a : Nat} {v : Word} {s t : State} (he : WriteEffect a v s t) : t.host = s.host := by
  cases he <;> rfl

/-- Settles O42: the write answers a next state, and no effect of a write touches the host. -/
theorem hostWriteAppliesTheRegisterWrite : Obligations.HostWriteAppliesTheRegisterWrite := by
  intro s a v hturn ha h4 hst
  obtain ⟨u, hu⟩ := writeOffset_next a v s.hostTick
  refine ⟨u, ?_, hu, (writeOffset_effect hu).host⟩
  rw [step_of_hostStmt hturn hst, ← hu]
  exact withAccess_aligned ha h4 s.hostTick _

end Sys2Proof.Machine

/-! ## Proofs: the encoding of commands -/

namespace Sys2Proof

/-! ### Decoder and encoder -/

@[simp] theorem opcField_commandWord (arg opc : Byte) : opcField (commandWord arg opc) = opc := by
  apply BitVec.eq_of_toNat_eq
  rw [opcField_toNat, commandWord_toNat]
  omega

@[simp] theorem argField_commandWord (arg opc : Byte) : argField (commandWord arg opc) = arg := by
  apply BitVec.eq_of_toNat_eq
  rw [argField_toNat, commandWord_toNat]
  omega

@[simp] theorem rsvField_commandWord (arg opc : Byte) : rsvField (commandWord arg opc) = 0 := by
  apply BitVec.eq_of_toNat_eq
  rw [rsvField_toNat, commandWord_toNat]
  simp
  omega

/-- Every command is read back from its own word (30 R81). -/
@[simp] theorem decode_encode (i : Instr) : decode (encode i) = .instr i := by
  cases i <;> simp [encode, decode, withoutArg]

theorem decode_eq_instr_iff {w : Word} {i : Instr} : decode w = .instr i ↔ w = encode i :=
  ⟨eq_encode_of_decode, fun h => h ▸ decode_encode i⟩

theorem encode_injective {i j : Instr} (h : encode i = encode j) : i = j := by
  have hd := decode_encode i
  rw [h, decode_encode] at hd
  exact (Decoded.instr.inj hd).symm

theorem Instr.wf_eq_true (i : Instr) : i.wf = true := by cases i <;> rfl

/-- Settles O1: a word is read as a command only if it is the command's word, and every command's word is read back. -/
theorem decodeInvertsEncode : Obligations.DecodeInvertsEncode := fun _ i =>
  decode_eq_instr_iff.trans (and_iff_right i.wf_eq_true).symm

/-- Settles O4: the legal words are encodings, and the decoder computes its answer for the illegal ones. -/
theorem sampleCommandWords : Obligations.SampleCommandWords :=
  ⟨decode_encode .decClear, decode_encode (.decPush 0x4D), decode_encode (.decPush 0xFF), decode_encode .decFinish,
    decode_encode .totpGenerate, decode_encode .softReset, by decide, by decide, by decide⟩

/-! ### The opcode table -/

/-- The row of a command accepts the command's word (30 R81). -/
theorem Instr.encodedRow (i : Instr) : Laws.EncodedRow.Statement i := by
  cases i with
  | decClear => exact Laws.EncodedRow.decClear
  | decPush c => exact Laws.EncodedRow.decPush c
  | decFinish => exact Laws.EncodedRow.decFinish
  | totpGenerate => exact Laws.EncodedRow.totpGenerate
  | softReset => exact Laws.EncodedRow.softReset

/-- A row whose mask has every bit accepts its own word only. -/
theorem OpcodeRow.eq_of_accepts {m : String} {v w : Word} (h : OpcodeRow.accepts ⟨m, v, 0xFFFFFFFF⟩ w = true) :
    w = v := by
  have hw : w &&& BitVec.allOnes 32 = v := by simpa [OpcodeRow.accepts] using h
  rwa [BitVec.and_allOnes] at hw

/-- The mask 0xFFFF00FF leaves ARG free and fixes RSV and OPC (30 R80). -/
theorem eq_encode_decPush_of_mask {w : Word} (h : w &&& 0xFFFF00FF = 0x00000002) :
    w = encode (.decPush (argField w)) := by
  have hrsv : rsvField w = 0 := by
    rw [← BitVec.and_allOnes (x := rsvField w)]
    exact BitVec.extractLsb'_and.symm.trans (congrArg rsvField h)
  have hopc : opcField w = 0x02 := by
    rw [← BitVec.and_allOnes (x := opcField w)]
    exact BitVec.extractLsb'_and.symm.trans (congrArg opcField h)
  rw [encode, ← hopc, commandWord_fields hrsv]

/-- What a row of the table accepts is the word of a command with the row's mnemonic (30 R81). -/
theorem OpcodeRow.exists_encode_of_accepts {r : OpcodeRow} {w : Word} (hr : r ∈ opcodeTable)
    (h : r.accepts w = true) : ∃ i : Instr, r.mnemonic = i.mnemonic ∧ w = encode i := by
  simp only [opcodeTable, List.mem_cons, List.not_mem_nil, or_false] at hr
  obtain rfl | rfl | rfl | rfl | rfl := hr
  · exact ⟨.decClear, rfl, eq_of_accepts h⟩
  · exact ⟨.decPush (argField w), rfl, eq_encode_decPush_of_mask (beq_iff_eq.1 h)⟩
  · exact ⟨.decFinish, rfl, eq_of_accepts h⟩
  · exact ⟨.totpGenerate, rfl, eq_of_accepts h⟩
  · exact ⟨.softReset, rfl, eq_of_accepts h⟩

/-- No two rows of the table bear the same mnemonic (30 R81). -/
theorem opcodeTable_mnemonic_injective :
    ∀ r ∈ opcodeTable, ∀ r' ∈ opcodeTable, r.mnemonic = r'.mnemonic → r = r' := by decide

/-- Settles O2: a row accepts exactly the words of the commands with its mnemonic, and a word encodes one command. -/
theorem legalWordsMatchExactlyOneRow : Obligations.LegalWordsMatchExactlyOneRow := by
  intro w
  have hrow : ∀ i, decode w = .instr i → ∃ r ∈ opcodeTable, r.accepts w = true ∧ r.mnemonic = i.mnemonic := by
    intro i hd
    obtain ⟨r, hr, hm, ha⟩ := i.encodedRow
    exact ⟨r, hr, eq_encode_of_decode hd ▸ ha, hm⟩
  refine ⟨⟨fun ⟨i, hd⟩ => ?_, fun ⟨r, hr, ha⟩ => ?_⟩, fun r hr r' hr' ha ha' => ?_, hrow⟩
  · obtain ⟨r, hr, ha, -⟩ := hrow i hd
    exact ⟨r, hr, ha⟩
  · obtain ⟨i, -, rfl⟩ := r.exists_encode_of_accepts hr ha
    exact ⟨i, decode_encode i⟩
  · obtain ⟨i, hm, rfl⟩ := r.exists_encode_of_accepts hr ha
    obtain ⟨j, hm', hij⟩ := r'.exists_encode_of_accepts hr' ha'
    obtain rfl := encode_injective hij
    exact opcodeTable_mnemonic_injective r hr r' hr' (hm.trans hm'.symm)

/-! ### Illegal words -/

theorem exists_withoutArg_eq_illegal {w : Word} {i : Instr} :
    (∃ why, withoutArg w i = .illegal why) ↔ argField w ≠ 0 := by
  by_cases ha : argField w = 0#8 <;> simp [withoutArg, ha]

/-- The illegal words by their fields (30 R84). -/
theorem exists_decode_eq_illegal {w : Word} :
    (∃ why, decode w = .illegal why) ↔
      rsvField w ≠ 0 ∨ (argField w ≠ 0 ∧ opcField w ≠ 0x02) ∨
        opcField w ∉ ([0x01, 0x02, 0x03, 0x10, 0xFF] : List Byte) := by
  unfold decode
  split_ifs with hr h1 h2 h3 h4 h5
  · exact iff_of_true ⟨_, rfl⟩ (.inl hr)
  · rw [exists_withoutArg_eq_illegal, not_not.1 hr, h1]
    simp
  · rw [not_not.1 hr, h2]
    simp
  · rw [exists_withoutArg_eq_illegal, not_not.1 hr, h3]
    simp
  · rw [exists_withoutArg_eq_illegal, not_not.1 hr, h4]
    simp
  · rw [exists_withoutArg_eq_illegal, not_not.1 hr, h5]
    simp
  · refine iff_of_true ⟨_, rfl⟩ (.inr (.inr ?_))
    simp only [List.mem_cons, List.not_mem_nil, h1, h2, h3, h4, h5, or_self, not_false_eq_true]

/-- SOFT_RESET's word is legal (30 R81). -/
theorem ne_softReset_of_illegal {w : Word} {why : IllegalWord} (hw : decode w = .illegal why) : w ≠ 0x000000FF := by
  rintro rfl
  cases hw

namespace Machine

/-- A write of an illegal word to CMD while BUSY = 0 sets ERR_CMD (43 R160, R164). -/
theorem writeCmd_of_illegal {w : Word} {why : IllegalWord} {s : State} (hw : decode w = .illegal why)
    (hb : s.status.busy = false) : writeCmd w s = .next (s.raise .cmd) := by
  rw [writeCmd, if_neg (ne_softReset_of_illegal hw), if_neg (by simp [hb]), hw]

/-- Settles O3: the fields of an illegal word read as numbers, and CMD's tests in their order. -/
theorem illegalWordsSetOneErrorBit : Obligations.IllegalWordsSetOneErrorBit := by
  refine ⟨fun w => ?_, fun w s ⟨why, hw⟩ => ?_⟩
  · rw [exists_decode_eq_illegal, ← rsvField_toNat, ← argField_toNat, ← opcField_toNat]
    simp [← BitVec.toNat_inj]
  · refine (writeOffset_offsetOf .cmd w s).trans ?_
    split_ifs with hb
    · exact writeCmd_of_busy (ne_softReset_of_illegal hw) hb
    · exact writeCmd_of_illegal hw (eq_false_of_ne_true hb)

/-! ### Branches of the host -/

/-- A label that stands at one place only is found there (30 R86). -/
theorem labelIndex_eq_some {p : List HostStmt} {l i : Nat} (hi : p[i]? = some (.label l))
    (huniq : ∀ j, p[j]? = some (.label l) → j = i) : labelIndex p l = some i := by
  cases hf : labelIndex p l with
  | none =>
    have hno := List.findIdx?_eq_none_iff.1 hf _ (List.mem_of_getElem? hi)
    simp at hno
  | some j =>
    obtain ⟨hj, hl, -⟩ := List.findIdx?_eq_some_iff_getElem.1 hf
    rw [huniq j (by rw [List.getElem?_eq_getElem hj, beq_iff_eq.1 hl])]

theorem branch_notTaken {b : Bool} (hb : b = false) (l : Nat) (s : State) : branch b l s = .next s := by
  rw [branch, if_neg (by simp [hb])]

theorem branch_taken {b : Bool} {l i : Nat} {s : State} (hb : b = true) (hl : labelIndex s.host.program l = some i) :
    branch b l s = .next (s.goto i) := by
  rw [branch, if_pos hb, hl]

/-- Settles O43: the step is the branch statement, taken or not by its mask, and the label's index is its one place. -/
theorem hostBranchesFollowTheMask : Obligations.HostBranchesFollowTheMask := by
  intro s t l m hturn v hostAt
  refine ⟨fun hst hv => ?_, fun hst hv => ?_, fun i hi huniq => ⟨fun hst hv => ?_, fun hst hv => ?_⟩⟩
  · exact (step_of_hostStmt hturn hst).trans (branch_notTaken (bne_eq_false_iff_eq.2 hv) l s.hostTick)
  · exact (step_of_hostStmt hturn hst).trans (branch_notTaken (beq_eq_false_iff_ne.2 hv) l s.hostTick)
  · exact (step_of_hostStmt hturn hst).trans (branch_taken (bne_iff_ne.2 hv) (labelIndex_eq_some hi huniq))
  · exact (step_of_hostStmt hturn hst).trans (branch_taken (beq_iff_eq.2 hv) (labelIndex_eq_some hi huniq))

end Machine
end Sys2Proof

/-! ## Proofs: the decoder's commands -/

namespace Sys2Proof.Machine

/-! ### What a performance answers and leaves unchanged -/

/-- Every command completes in every state (43 R161). -/
theorem exec_next (i : Instr) (s : State) : ∃ t, exec i s = .next t := by
  cases i with
  | decClear | softReset => exact ⟨_, rfl⟩
  | decPush c =>
    simp only [exec, execDecPush]
    split
    · exact ⟨_, rfl⟩
    · split <;> exact ⟨_, rfl⟩
  | decFinish =>
    simp only [exec, execDecFinish]
    split <;> exact ⟨_, rfl⟩
  | totpGenerate =>
    simp only [exec, execTotpGenerate]
    split
    · split <;> exact ⟨_, rfl⟩
    · exact ⟨_, rfl⟩

/-- `t` is `s` but for what DEC_PUSH of an open decoder may write: the decoder's registers and STATUS bits 4, 5 and 6
(40 R101, R103). -/
def PushFrame (s t : State) : Prop :=
  t = { s with
    acc := t.acc
    nbits := t.nbits
    keybuf := t.keybuf
    keyLen := t.keyLen
    status := { s.status with
      errInvalidSecret := t.status.errInvalidSecret
      warnCharSkipped := t.status.warnCharSkipped
      errKeyOverflow := t.status.errKeyOverflow } }

theorem PushFrame.refl (s : State) : PushFrame s s := rfl

section PushFrame
variable {s t u : State} (h : PushFrame s t)
include h

theorem PushFrame.trans (h' : PushFrame t u) : PushFrame s u := by
  refine Eq.trans h' ?_
  rw [h]

theorem PushFrame.params : t.params = s.params := (congrArg State.params h :)

theorem PushFrame.ctrl : t.ctrl = s.ctrl := (congrArg State.ctrl h :)

theorem PushFrame.results : t.results = s.results := (congrArg State.results h :)

theorem PushFrame.draws : t.draws = s.draws := (congrArg State.draws h :)

theorem PushFrame.host : t.host = s.host := (congrArg State.host h :)

theorem PushFrame.sameConfig : SameConfig s t :=
  ⟨h.ctrl, (congrArg State.timeStep h :), (congrArg State.digits h :), (congrArg State.nowLo h :),
    (congrArg State.nowHi h :)⟩

theorem PushFrame.sameSurroundings : SameSurroundings s t :=
  ⟨h.params, (congrArg State.pending h :), (congrArg State.delay h :), h.host⟩

theorem PushFrame.status : t.status = { s.status with
    errInvalidSecret := t.status.errInvalidSecret
    warnCharSkipped := t.status.warnCharSkipped
    errKeyOverflow := t.status.errKeyOverflow } := (congrArg State.status h :)

theorem PushFrame.keyClosed : t.status.keyClosed = s.status.keyClosed := (congrArg Status.keyClosed h.status :)

theorem PushFrame.errSequence : t.status.errSequence = s.status.errSequence :=
  (congrArg Status.errSequence h.status :)

end PushFrame

/-- A byte with room in the buffer is stored (40 R103). -/
theorem State.appendKeyByte_of_lt {s : State} (hroom : s.keyLen.toNat < s.params.keyMaxBytes) (b : Byte) :
    s.appendKeyByte b = { s with keybuf := s.keybuf.write s.keyLen.toNat b, keyLen := s.keyLen + 1 } := if_pos hroom

/-- A byte that meets a full buffer is dropped (40 R103). -/
theorem State.appendKeyByte_of_le {s : State} (hfull : s.params.keyMaxBytes ≤ s.keyLen.toNat) (b : Byte) :
    s.appendKeyByte b = { s with status := { s.status with errKeyOverflow := true } } := if_neg (Nat.not_lt.2 hfull)

theorem State.pushFrame_appendKeyByte (s : State) (b : Byte) : PushFrame s (s.appendKeyByte b) := by
  rcases Nat.lt_or_ge s.keyLen.toNat s.params.keyMaxBytes with hroom | hfull
  · rw [State.appendKeyByte_of_lt hroom]
    rfl
  · rw [State.appendKeyByte_of_le hfull]
    rfl

theorem State.pushFrame_pack (s : State) (v : BitVec 5) : PushFrame s (s.pack v) := by
  rcases Nat.lt_or_ge (s.nbits.toNat + 5) 8 with hn | hn
  · rw [State.pack_of_lt v hn]
    rfl
  · rw [State.pack_of_le v hn]
    exact (s.pushFrame_appendKeyByte _).trans rfl

theorem State.pushFrame_rejectChar (s : State) : PushFrame s s.rejectChar := by
  unfold State.rejectChar
  split <;> rfl

/-- A produced byte goes nowhere but to `KEYBUF[KEY_LEN]` (40 R103). -/
theorem State.appendKeyByte_read_other {s : State} (b : Byte) {n : Nat} (hn : n ≠ s.keyLen.toNat) :
    (s.appendKeyByte b).keybuf.read n = s.keybuf.read n := by
  unfold State.appendKeyByte
  split
  · exact Memory.read_write_other b hn
  · rfl

theorem State.pack_read_other {s : State} (v : BitVec 5) {n : Nat} (hn : n ≠ s.keyLen.toNat) :
    (s.pack v).keybuf.read n = s.keybuf.read n := by
  rcases Nat.lt_or_ge (s.nbits.toNat + 5) 8 with h8 | h8
  · rw [State.pack_of_lt v h8]
  · rw [State.pack_of_le v h8]
    exact State.appendKeyByte_read_other _ hn

theorem State.rejectChar_keybuf (s : State) : s.rejectChar.keybuf = s.keybuf := by
  unfold State.rejectChar
  split <;> rfl

section ExecEffect
variable {i : Instr} {s t : State} (he : ExecEffect s i t)
include he

/-- No command touches the host's side, SOFT_RESET included (log 18). -/
theorem ExecEffect.host : t.host = s.host := by
  cases he with
  | rejected _ _ => exact s.pushFrame_rejectChar.host
  | packed _ _ => exact (s.pushFrame_pack _).host
  | _ => rfl

/-- No command but SOFT_RESET touches the configuration or the pending command (10 R45, 43 R161). -/
theorem ExecEffect.sameConfig_and_surroundings (hi : i ≠ .softReset) : SameConfig s t ∧ SameSurroundings s t := by
  cases he with
  | rejected _ _ => exact ⟨s.pushFrame_rejectChar.sameConfig, s.pushFrame_rejectChar.sameSurroundings⟩
  | packed _ _ => exact ⟨(s.pushFrame_pack _).sameConfig, (s.pushFrame_pack _).sameSurroundings⟩
  | reset => exact absurd rfl hi
  | _ => exact ⟨⟨rfl, rfl, rfl, rfl, rfl⟩, rfl, rfl, rfl, rfl⟩

/-- The decoder's commands leave the result registers and take no draw (40 R100-R104). -/
theorem ExecEffect.results_and_draws (hi : i ≠ .softReset) (hi' : i ≠ .totpGenerate) :
    t.results = s.results ∧ t.draws = s.draws := by
  cases he with
  | rejected _ _ => exact ⟨s.pushFrame_rejectChar.results, s.pushFrame_rejectChar.draws⟩
  | packed _ _ => exact ⟨(s.pushFrame_pack _).results, (s.pushFrame_pack _).draws⟩
  | reset => exact absurd rfl hi
  | noKey _ | digestFailed _ _ _ | committed _ _ | committedDrawn _ _ _ => exact absurd rfl hi'
  | _ => exact ⟨rfl, rfl⟩

end ExecEffect

/-- Settles O31: the command completes, and each of its effects leaves all but its own registers. -/
theorem commandsKeepTheRest : Obligations.CommandsKeepTheRest := by
  intro i s
  obtain ⟨t, ht⟩ := exec_next i s
  have he := exec_effect ht
  refine ⟨t, ht, he.params, he.host, he.sameConfig_and_surroundings, he.results_and_draws, ?_⟩
  cases he with
  | cleared => rfl
  | pushWhileClosed c _ => exact ⟨fun _ _ => rfl, rfl⟩
  | rejected _ _ =>
    refine ⟨fun n _ => by rw [s.rejectChar_keybuf], ?_⟩
    rw [s.pushFrame_rejectChar.errSequence]
    exact s.pushFrame_rejectChar.status
  | packed _ _ =>
    refine ⟨fun n hn => State.pack_read_other _ hn, ?_⟩
    rw [(s.pushFrame_pack _).errSequence]
    exact (s.pushFrame_pack _).status
  | finishWhileClosed _ | finished _ => exact ⟨rfl, fun _ => rfl, rfl⟩
  | noKey _ | digestFailed _ _ _ | committed _ _ | committedDrawn _ _ _ =>
    exact ⟨⟨rfl, rfl, rfl, fun _ => rfl⟩, rfl⟩
  | reset => trivial

/-! ### A rejected secret gives no code -/

/-- Result registers that hold zero read 0 (10 R32-R39). -/
theorem readReg_eq_zero_of_results_zero {s : State} (h : s.results = Results.zero) :
    ∀ r ∈ resultRegs, readReg s r = 0 := by
  simp [resultRegs, readReg, h, Results.zero]

/-- TOTP_GENERATE without a valid key (41 R121). -/
theorem exec_totpGenerate_of_noKey {s : State} (hv : s.status.keyValid = false) :
    exec .totpGenerate s = .next (s.fail .noKey) := by
  simp [exec, execTotpGenerate, hv]

/-- Settles O52: the invariant lets no key be valid beside either error, and without a valid key the command fails. -/
theorem noCodeFromARejectedSecret : Obligations.NoCodeFromARejectedSecret := by
  intro s h herr
  have hv : s.status.keyValid = false := by
    refine Bool.eq_false_iff.2 fun hv => ?_
    obtain ⟨hinvalid, hoverflow⟩ := h.valid_clean hv
    simp [hinvalid, hoverflow] at herr
  exact ⟨s.fail .noKey, exec_totpGenerate_of_noKey hv, rfl, rfl, readReg_eq_zero_of_results_zero rfl⟩

/-! ### Characters -/

/-- Only 0x61..0x7A is folded (40 R102). -/
theorem foldCase_toNat (c : Byte) :
    (foldCase c).toNat = if 0x61 ≤ c.toNat ∧ c.toNat ≤ 0x7A then c.toNat - 0x20 else c.toNat := by
  have hcond : 0x61 ≤ c ∧ c ≤ 0x7A ↔ 0x61 ≤ c.toNat ∧ c.toNat ≤ 0x7A := Iff.rfl
  unfold foldCase
  split_ifs with h1 h2 h2
  · exact BitVec.toNat_sub_of_le (BitVec.le_def.2 (by simp; omega))
  · exact absurd (hcond.1 h1) h2
  · exact absurd (hcond.2 h2) h1
  · rfl

/-- Settles O5: the two ranges of the alphabet, as numbers. -/
theorem classifyIsAlphabetPosition : Obligations.ClassifyIsAlphabetPosition := by
  intro c v u
  have hu : u = (foldCase c).toNat := (foldCase_toNat c).symm
  rw [hu, classify]
  split_ifs with hletter hdigit
  · rw [Option.some_inj]
    bv_omega
  · rw [Option.some_inj]
    bv_omega
  · refine iff_of_false nofun ?_
    bv_omega

/-! ### DEC_CLEAR -/

/-- The state DEC_CLEAR leaves (40 R100). -/
def State.cleared (s : State) : State :=
  { s with acc := 0, nbits := 0, keybuf := [], keyLen := 0, status := s.status.clearDecoder }

theorem exec_decClear (s : State) : exec .decClear s = .next s.cleared := rfl

theorem State.openEmpty_cleared (s : State) : OpenEmpty s.cleared :=
  ⟨rfl, rfl, rfl, rfl, rfl, rfl, rfl, rfl, rfl, rfl⟩

theorem State.openEmpty_resetWith (p : Params) : OpenEmpty (State.resetWith p) :=
  ⟨rfl, rfl, rfl, rfl, rfl, rfl, rfl, rfl, rfl, rfl⟩

/-- DEC_CLEAR clears STATUS bits 7:2 and keeps the rest (40 R100). -/
theorem Status.clearDecoder_toWord (t : Status) : t.clearDecoder.toWord = t.toWord &&& 0xFFFFFF03 := by
  refine BitVec.eq_of_getLsbD_eq fun k hk => ?_
  rw [Status.toWord_bit, BitVec.getLsbD_and, Status.toWord_bit]
  interval_cases k <;> simp [Status.clearDecoder]

/-- Settles O6, by the cleared state, which for the reset state is itself. -/
theorem decClearEmptiesDecoder : Obligations.DecClearEmptiesDecoder :=
  ⟨fun s => ⟨s.cleared, exec_decClear s, s.openEmpty_cleared, Memory.read_nil, rfl,
    show 0#21 ++ 0#3 ++ 0#1 ++ 0#7 = (0 : Word) by decide, s.status.clearDecoder_toWord, rfl,
    ⟨rfl, rfl, rfl, rfl, rfl⟩, ⟨rfl, rfl, rfl, rfl⟩, rfl⟩, fun _ => rfl⟩

/-! ### DEC_PUSH of one character -/

/-- What DEC_PUSH leaves of an open decoder (40 R101). -/
def State.pushChar (s : State) (c : Byte) : State :=
  match classify c with
  | none => s.rejectChar
  | some v => s.pack v

theorem State.pushChar_of_none {c : Byte} (hv : classify c = none) (s : State) : s.pushChar c = s.rejectChar := by
  rw [State.pushChar, hv]

theorem State.pushChar_of_some {c : Byte} {v : BitVec 5} (hv : classify c = some v) (s : State) :
    s.pushChar c = s.pack v := by
  rw [State.pushChar, hv]

theorem State.pushFrame_pushChar (s : State) (c : Byte) : PushFrame s (s.pushChar c) := by
  unfold State.pushChar
  split
  · exact s.pushFrame_rejectChar
  · exact s.pushFrame_pack _

theorem exec_decPush_of_closed {s : State} (hc : s.status.keyClosed = true) (c : Byte) :
    exec (.decPush c) s = .next (s.raise .sequence) := if_pos hc

theorem exec_decPush_of_open {s : State} (hc : s.status.keyClosed = false) (c : Byte) :
    exec (.decPush c) s = .next (s.pushChar c) := by
  simp only [exec, execDecPush, hc, Bool.false_eq_true, if_false, State.pushChar]
  cases classify c <;> rfl

/-- Settles O7, by the three tests in their order: CLOSED, the alphabet, STRICT. -/
theorem decPushOfUnpackedCharacter : Obligations.DecPushOfUnpackedCharacter := by
  intro s c h
  split_ifs with hc hstrict
  · exact exec_decPush_of_closed hc c
  · rw [exec_decPush_of_open (eq_false_of_ne_true hc), State.pushChar_of_none (h.resolve_left hc), State.rejectChar,
      if_pos hstrict]
  · rw [exec_decPush_of_open (eq_false_of_ne_true hc), State.pushChar_of_none (h.resolve_left hc), State.rejectChar,
      if_neg hstrict]

/-- A legal capacity keeps KEY_LEN from wrapping around (00 R6, log 22). -/
theorem keyLen_succ_toNat {s : State} (hp : s.params.wf = true) (hroom : s.keyLen.toNat < s.params.keyMaxBytes) :
    (s.keyLen + 1).toNat = s.keyLen.toNat + 1 := by
  simp only [Params.wf, Bool.and_eq_true, decide_eq_true_eq] at hp
  bv_omega

section pack
variable {s : State} (v : BitVec 5)

/-- The pending bits and a symbol's are `NBITS + 5` bits (10 R31, 40 R103). -/
theorem packed_lt_of_acc_lt (hacc : s.acc.toNat < 2 ^ s.nbits.toNat) :
    s.acc.toNat * 32 + v.toNat < 2 ^ (s.nbits.toNat + 5) := by
  have := v.isLt
  rw [pow_add]
  omega

/-- `pack` that collects: the pending bits and their count, as numbers (40 R103). -/
theorem State.pack_toNat_of_lt (hacc : s.acc.toNat < 2 ^ s.nbits.toNat) (hn : s.nbits.toNat + 5 < 8) :
    (s.pack v).acc.toNat = s.acc.toNat * 32 + v.toNat ∧ (s.pack v).nbits.toNat = s.nbits.toNat + 5 := by
  have hle : 2 ^ (s.nbits.toNat + 5) ≤ 2 ^ 7 := Nat.pow_le_pow_right two_pos (by omega)
  rw [State.pack_of_lt v hn]
  refine ⟨?_, Nat.mod_eq_of_lt hn⟩
  rw [BitVec.toNat_setWidth, packedBits_toNat]
  exact Nat.mod_eq_of_lt ((packed_lt_of_acc_lt v hacc).trans_le hle)

/-- `pack` that produces a byte: the rest of the pending bits and their count, as numbers (40 R103). -/
theorem State.pack_toNat_of_le (hn : 8 ≤ s.nbits.toNat + 5) :
    (s.pack v).acc.toNat = (s.acc.toNat * 32 + v.toNat) % 2 ^ (s.nbits.toNat + 5 - 8) ∧
      (s.pack v).nbits.toNat = s.nbits.toNat + 5 - 8 := by
  have hnbits := s.nbits.isLt
  have hle : 2 ^ (s.nbits.toNat + 5 - 8) ≤ 2 ^ 7 := Nat.pow_le_pow_right two_pos (by omega)
  rw [State.pack_of_le v hn]
  refine ⟨?_, Nat.mod_eq_of_lt (by omega)⟩
  rw [BitVec.toNat_ofNat, packedBits_toNat]
  exact Nat.mod_eq_of_lt ((Nat.mod_lt _ (Nat.two_pow_pos _)).trans_le hle)

/-- The byte `pack` produces: the 8 oldest of the pending bits (40 R103). -/
theorem producedByte_toNat (acc : BitVec 7) (k : Nat) :
    ((packedBits acc v >>> k).setWidth 8).toNat = (acc.toNat * 32 + v.toNat) / 2 ^ k % 2 ^ 8 := by
  rw [BitVec.toNat_setWidth, BitVec.toNat_ushiftRight, packedBits_toNat, Nat.shiftRight_eq_div_pow]

end pack

/-- Settles O8: `pack` collects or produces a byte, and the byte is stored or dropped. -/
theorem decPushPacksSymbol : Obligations.DecPushPacksSymbol := by
  intro s c v hp hc hv hacc hwf
  have hframe := s.pushFrame_pack v
  refine ⟨s.pack v, ?_, ?_, ?_, hframe.results, hframe.sameConfig, hframe.sameSurroundings, hframe.draws⟩
  · rw [exec_decPush_of_open hc, State.pushChar_of_some hv]
  · intro bits n
    split_ifs with hn hroom
    · obtain ⟨hacc', hnbits'⟩ := State.pack_toNat_of_lt v hacc hn
      refine ⟨hacc', hnbits', ?_⟩
      rw [State.pack_of_lt v hn]
      exact ⟨rfl, fun _ => rfl, rfl⟩
    · obtain ⟨hacc', hnbits'⟩ := State.pack_toNat_of_le v (Nat.not_lt.1 hn)
      refine ⟨hacc', hnbits', ?_⟩
      rw [State.pack_of_le v (Nat.not_lt.1 hn), State.appendKeyByte_of_lt hroom]
      refine ⟨keyLen_succ_toNat hp hroom, ?_, fun i hi => Memory.read_write_other _ hi, rfl⟩
      rw [Memory.read_write_same hwf]
      exact producedByte_toNat v s.acc _
    · obtain ⟨hacc', hnbits'⟩ := State.pack_toNat_of_le v (Nat.not_lt.1 hn)
      refine ⟨hacc', hnbits', ?_⟩
      rw [State.pack_of_le v (Nat.not_lt.1 hn), State.appendKeyByte_of_le (Nat.not_lt.1 hroom)]
      exact ⟨rfl, fun _ => rfl, rfl⟩
  · rcases Nat.lt_or_ge (s.nbits.toNat + 5) 8 with hn | hn
    · obtain ⟨hacc', hnbits'⟩ := State.pack_toNat_of_lt v hacc hn
      rw [hacc', hnbits']
      exact packed_lt_of_acc_lt v hacc
    · obtain ⟨hacc', hnbits'⟩ := State.pack_toNat_of_le v hn
      rw [hacc', hnbits']
      exact Nat.mod_lt _ (Nat.two_pow_pos _)

/-! ### DEC_FINISH -/

theorem exec_decFinish_of_closed {s : State} (hc : s.status.keyClosed = true) :
    exec .decFinish s = .next (s.raise .sequence) := if_pos hc

theorem exec_decFinish_of_open {s : State} (hc : s.status.keyClosed = false) :
    exec .decFinish s = .next (finishedState s) := if_neg (by simp [hc])

theorem State.degenerate_iff (s : State) :
    s.degenerate = true ↔ s.keyLen.toNat = 0 ∨ s.keyLen.toNat < s.ctrl.minKeyBytes.toNat := by
  simp only [State.degenerate, Bool.or_eq_true, decide_eq_true_eq]

/-- When DEC_FINISH makes the key valid (40 R104). -/
theorem finishedState_keyValid_iff (s : State) : (finishedState s).status.keyValid = true ↔
    s.status.errInvalidSecret = false ∧ s.status.errKeyOverflow = false ∧
      ¬(s.ctrl.minkeyEn = true ∧ (s.keyLen.toNat = 0 ∨ s.keyLen.toNat < s.ctrl.minKeyBytes.toNat)) := by
  rw [← State.degenerate_iff]
  simp only [finishedState, Bool.and_eq_true, Bool.not_eq_true', Bool.and_eq_false_iff, Bool.not_eq_true, and_assoc,
    not_and_or]

/-- Settles O9, by the state a closed and an open decoder is left in. -/
theorem decFinishDecidesTheKey : Obligations.DecFinishDecidesTheKey := by
  intro s
  by_cases hc : s.status.keyClosed = true
  · exact ⟨s.raise .sequence, exec_decFinish_of_closed hc, by rw [if_pos hc]; rfl⟩
  · refine ⟨finishedState s, exec_decFinish_of_open (eq_false_of_ne_true hc), ?_⟩
    rw [if_neg hc]
    exact ⟨rfl, rfl, rfl, s.degenerate_iff, finishedState_keyValid_iff s, rfl, rfl, fun _ => rfl, rfl,
      ⟨rfl, rfl, rfl, rfl, rfl⟩, ⟨rfl, rfl, rfl, rfl⟩, rfl⟩

end Sys2Proof.Machine

/-! ## Proofs: a whole secret -/

namespace Sys2Proof.Machine

/-! ### The commands of a secret -/

/-- What one DEC_PUSH per character leaves of an open decoder (30 R87, 40 R101). -/
def State.pushAll (s : State) (cs : List Byte) : State := cs.foldl State.pushChar s

@[simp] theorem State.pushAll_nil (s : State) : s.pushAll [] = s := rfl

@[simp] theorem State.pushAll_cons (s : State) (c : Byte) (cs : List Byte) :
    s.pushAll (c :: cs) = (s.pushChar c).pushAll cs := rfl

theorem State.pushFrame_pushAll (s : State) (cs : List Byte) : PushFrame s (s.pushAll cs) := by
  induction cs generalizing s with
  | nil => exact .refl s
  | cons c cs ih => exact (s.pushFrame_pushChar c).trans (ih (s.pushChar c))

/-- The commands of a secret complete on an open decoder (43 R161). -/
theorem performAll_secretCommands {s : State} (hc : s.status.keyClosed = false) (cs : List Byte) :
    performAll (secretCommands cs) s = .next (finishedState (s.pushAll cs)) := by
  induction cs generalizing s with
  | nil =>
    change performAll [.decFinish] s = _
    rw [performAll, exec_decFinish_of_open hc]
    rfl
  | cons c cs ih =>
    have hc' : (s.pushChar c).status.keyClosed = false := (s.pushFrame_pushChar c).keyClosed.trans hc
    change performAll (.decPush c :: secretCommands cs) s = _
    rw [performAll, exec_decPush_of_open hc]
    exact ih hc'

/-! ### Determinism -/

/-- The state `t` with the decoder, CTRL and the parameters of `s`. -/
def State.graftDecoder (t s : State) : State :=
  { t with
    params := s.params
    ctrl := s.ctrl
    acc := s.acc
    nbits := s.nbits
    keybuf := s.keybuf
    keyLen := s.keyLen
    status := { t.status with
      keyClosed := s.status.keyClosed
      keyValid := s.status.keyValid
      errInvalidSecret := s.status.errInvalidSecret
      warnCharSkipped := s.status.warnCharSkipped
      errKeyOverflow := s.status.errKeyOverflow
      warnDegenerateKey := s.status.warnDegenerateKey } }

/-- DEC_PUSH of an open decoder reads and writes the decoder alone (40 R106). -/
theorem State.pushChar_graftDecoder (t s : State) (c : Byte) :
    (t.graftDecoder s).pushChar c = t.graftDecoder (s.pushChar c) := by
  cases hv : classify c with
  | none =>
    rw [State.pushChar_of_none hv, State.pushChar_of_none hv, State.rejectChar, State.rejectChar]
    have hctrl : (t.graftDecoder s).ctrl = s.ctrl := rfl
    rw [hctrl]
    split <;> rfl
  | some v =>
    rw [State.pushChar_of_some hv, State.pushChar_of_some hv]
    rcases Nat.lt_or_ge (s.nbits.toNat + 5) 8 with hn | hn
    · rw [State.pack_of_lt v hn, State.pack_of_lt (s := t.graftDecoder s) v hn]
      rfl
    · rw [State.pack_of_le v hn, State.pack_of_le (s := t.graftDecoder s) v hn]
      rcases Nat.lt_or_ge s.keyLen.toNat s.params.keyMaxBytes with hroom | hfull
      · rw [State.appendKeyByte_of_lt hroom, State.appendKeyByte_of_lt (s := t.graftDecoder s) hroom]
        rfl
      · rw [State.appendKeyByte_of_le hfull, State.appendKeyByte_of_le (s := t.graftDecoder s) hfull]
        rfl

theorem State.pushAll_graftDecoder (t s : State) (cs : List Byte) :
    (t.graftDecoder s).pushAll cs = t.graftDecoder (s.pushAll cs) :=
  List.foldl_hom t.graftDecoder fun s c => t.pushChar_graftDecoder s c

/-- Right after DEC_CLEAR two states differ only outside the decoder, CTRL and the parameters (40 R100, R106). -/
theorem State.cleared_eq_graftDecoder {s t : State} (hp : s.params = t.params) (hctrl : s.ctrl = t.ctrl) :
    t.cleared = t.graftDecoder s.cleared := by
  simp only [State.cleared, State.graftDecoder, hp, hctrl, Status.clearDecoder]

/-- STATUS bits 7:2 are the decoder's (10 R24). -/
theorem State.graftDecoder_statusBits (t s : State) :
    (t.graftDecoder s).status.toWord &&& 0x000000FC = s.status.toWord &&& 0x000000FC := by
  refine BitVec.eq_of_getLsbD_eq fun k hk => ?_
  rw [BitVec.getLsbD_and, BitVec.getLsbD_and, Status.toWord_bit, Status.toWord_bit]
  interval_cases k <;> simp [State.graftDecoder]

/-- Settles O12: after DEC_CLEAR the second state is the first one's decoder grafted on it, and every command of the
secret keeps it so. -/
theorem decodingIsDeterministic : Obligations.DecodingIsDeterministic := by
  intro s1 s2 cs hp hctrl
  have hrun (s : State) : performAll (.decClear :: secretCommands cs) s =
      .next (finishedState (s.cleared.pushAll cs)) :=
    performAll_secretCommands rfl cs
  have hgraft : finishedState (s2.cleared.pushAll cs) = s2.graftDecoder (finishedState (s1.cleared.pushAll cs)) := by
    rw [State.cleared_eq_graftDecoder hp hctrl, State.pushAll_graftDecoder]
    rfl
  refine ⟨_, _, hrun s1, hrun s2, ?_⟩
  rw [hgraft]
  exact ⟨rfl, rfl, rfl, rfl, (State.graftDecoder_statusBits s2 _).symm⟩

end Sys2Proof.Machine

/-! ## Proofs: a secret's bits and its bytes -/

namespace Sys2Proof.Machine

/-! ### Bit sequences -/

/-- The low `n` bits of a number, most significant first. -/
def bitsMsb (n x : Nat) : List Bool := ((List.range n).map x.testBit).reverse

theorem bitsMsb_length (n x : Nat) : (bitsMsb n x).length = n := by simp [bitsMsb]

theorem bitsMsb_succ (n x : Nat) : bitsMsb (n + 1) x = x.testBit n :: bitsMsb n x := by
  simp [bitsMsb, List.range_succ]

theorem bitsMsb_congr {n x y : Nat} (h : ∀ k < n, x.testBit k = y.testBit k) : bitsMsb n x = bitsMsb n y :=
  congrArg List.reverse (List.map_congr_left fun k hk => h k (List.mem_range.1 hk))

/-- Only the low `n` bits count. -/
theorem bitsMsb_mod {m n : Nat} (h : n ≤ m) (x : Nat) : bitsMsb n (x % 2 ^ m) = bitsMsb n x :=
  bitsMsb_congr fun k hk => by simp [Nat.testBit_mod_two_pow, hk.trans_le h]

/-- The bits of a number fall into its high ones and its low ones. -/
theorem bitsMsb_add (m n x : Nat) : bitsMsb (m + n) x = bitsMsb m (x / 2 ^ n) ++ bitsMsb n x := by
  induction m with
  | zero => simp [bitsMsb]
  | succ m ih => rw [Nat.succ_add, bitsMsb_succ, bitsMsb_succ, ih, Nat.testBit_div_two_pow, List.cons_append]

/-- A symbol's bits are those of its value (40 R103). -/
theorem symbolBits_eq_bitsMsb (v : BitVec 5) : symbolBits v = bitsMsb 5 v.toNat := rfl

/-- `t = (ACC << 5) | v` has the pending bits and then the symbol's (40 R103). -/
theorem bitsMsb_append_symbolBits (n : Nat) (acc : BitVec 7) (v : BitVec 5) :
    bitsMsb n acc.toNat ++ symbolBits v = bitsMsb (n + 5) (packedBits acc v).toNat := by
  have hv := v.isLt
  have hhigh : (acc.toNat * 32 + v.toNat) / 2 ^ 5 = acc.toNat := by omega
  have hlow : (acc.toNat * 32 + v.toNat) % 2 ^ 5 = v.toNat := by omega
  rw [packedBits_toNat, bitsMsb_add, hhigh, ← bitsMsb_mod (le_refl 5) (acc.toNat * 32 + v.toNat), hlow,
    symbolBits_eq_bitsMsb]

/-! ### Slicing into bytes -/

/-- Leftover bits are dropped (40 R105, step 3). -/
theorem sliceBytes_of_short {l : List Bool} (h : l.length < 8) : sliceBytes l = [] := by
  unfold sliceBytes
  split
  · simp only [List.length_cons] at h
    omega
  · rfl

/-- The first 8 bits form the first byte (40 R105, step 3). -/
theorem sliceBytes_bitsMsb_append (b : Byte) (rest : List Bool) :
    sliceBytes (bitsMsb 8 b.toNat ++ rest) = b :: sliceBytes rest := by
  have hbyte : byteOfBits (b.getLsbD 7) (b.getLsbD 6) (b.getLsbD 5) (b.getLsbD 4) (b.getLsbD 3) (b.getLsbD 2)
      (b.getLsbD 1) (b.getLsbD 0) = b := by
    refine BitVec.eq_of_getLsbD_eq fun k hk => ?_
    simp only [byteOfBits, append_bit, ofBool_bit]
    interval_cases k <;> simp
  exact congrArg (· :: sliceBytes rest) hbyte

theorem sliceBytes_length : ∀ l : List Bool, (sliceBytes l).length = l.length / 8
  | [] | [_] | [_, _] | [_, _, _] | [_, _, _, _] | [_, _, _, _, _] | [_, _, _, _, _, _] | [_, _, _, _, _, _, _] => by
    simp [sliceBytes_of_short]
  | _ :: _ :: _ :: _ :: _ :: _ :: _ :: _ :: rest => by
    simp only [sliceBytes, List.length_cons, sliceBytes_length rest]
    omega

/-- A secret decodes to `floor(5n/8)` bytes for its `n` characters of the alphabet (40 R105). -/
theorem decodeSecret_length (cs : List Byte) : (decodeSecret cs).length = 5 * (symbolValues cs).length / 8 := by
  have hbits : ∀ vs : List (BitVec 5), (vs.flatMap symbolBits).length = 5 * vs.length := by
    intro vs
    induction vs with
    | nil => rfl
    | cons v vs ih =>
      rw [List.flatMap_cons, List.length_append, ih, symbolBits_eq_bitsMsb, bitsMsb_length, List.length_cons]
      omega
  rw [decodeSecret, sliceBytes_length, hbits]

/-! ### What the buffer holds -/

/-- NBITS bits of ACC, the oldest first: the pending bits (40 R103). -/
def State.pendingBits (s : State) : List Bool := bitsMsb s.nbits.toNat s.acc.toNat

/-- The decoder has produced the bytes `out` since it was empty: the buffer holds those that fit, and
ERR_KEY_OVERFLOW says whether some do not (40 R103). -/
structure Produced (out : List Byte) (s : State) : Prop where
  params_legal : s.params.wf = true
  keybuf_wf : s.keybuf.wf = true
  key_eq : s.key = out.take s.params.keyMaxBytes
  overflow_iff : s.status.errKeyOverflow = true ↔ s.params.keyMaxBytes < out.length

theorem Produced.of_openEmpty {s : State} (hp : s.params.wf = true) (h : OpenEmpty s) : Produced [] s := by
  obtain ⟨-, -, hlen, hbuf, -, -, -, -, hover, -⟩ := h
  exact ⟨hp, by rw [hbuf, Memory.wf_nil], by simp [State.key, hlen], by simp [hover]⟩

section Produced
variable {out : List Byte} {s : State} (h : Produced out s)
include h

theorem Produced.keyLen_toNat : s.keyLen.toNat = min s.params.keyMaxBytes out.length := by
  rw [← State.key_length, h.key_eq, List.length_take]

theorem Produced.withPendingBits {acc : BitVec 7} {nbits : BitVec 3} :
    Produced out { s with acc := acc, nbits := nbits } :=
  { h with }

theorem Produced.rejectChar : Produced out s.rejectChar := by
  unfold State.rejectChar
  split <;> exact { h with }

/-- A byte stored is the key's next one (40 R103). -/
theorem Produced.key_appendKeyByte_of_lt (hroom : s.keyLen.toNat < s.params.keyMaxBytes) (b : Byte) :
    (s.appendKeyByte b).key = s.key ++ [b] := by
  rw [State.appendKeyByte_of_lt hroom]
  simp only [State.key, keyLen_succ_toNat h.params_legal hroom, List.range_succ, List.map_append, List.map_singleton,
    Memory.read_write_same h.keybuf_wf]
  congr 1
  refine List.map_congr_left fun i hi => Memory.read_write_other b ?_
  exact Nat.ne_of_lt (List.mem_range.1 hi)

/-- One byte more is produced, stored or dropped (40 R103). -/
theorem Produced.appendKeyByte (b : Byte) : Produced (out ++ [b]) (s.appendKeyByte b) := by
  have hlen := h.keyLen_toNat
  rcases Nat.lt_or_ge s.keyLen.toNat s.params.keyMaxBytes with hroom | hfull
  · have hout : out.length < s.params.keyMaxBytes := by omega
    refine ⟨by simpa using h.params_legal, ?_, ?_, ?_⟩
    · rw [State.appendKeyByte_of_lt hroom]
      exact Memory.write_wf h.keybuf_wf _ _
    · rw [h.key_appendKeyByte_of_lt hroom, h.key_eq, State.appendKeyByte_params, List.take_of_length_le hout.le,
        List.take_of_length_le (by simpa using hout)]
    · rw [State.appendKeyByte_params, State.appendKeyByte_of_lt hroom, h.overflow_iff, List.length_append,
        List.length_singleton]
      omega
  · have hout : s.params.keyMaxBytes ≤ out.length := by omega
    rw [State.appendKeyByte_of_le hfull]
    refine ⟨h.params_legal, h.keybuf_wf, h.key_eq.trans (List.take_append_of_le_length hout).symm, iff_of_true rfl ?_⟩
    rw [List.length_append, List.length_singleton]
    exact Nat.lt_succ_of_le hout

/-- A symbol joins the pending bits: what they and the bits to come slice into stays the same, but for the bytes
that have been produced (40 R103, R105). -/
theorem Produced.pack (v : BitVec 5) : ∃ new, Produced (out ++ new) (s.pack v) ∧
    ∀ rest, sliceBytes (s.pendingBits ++ (symbolBits v ++ rest)) =
      new ++ sliceBytes ((s.pack v).pendingBits ++ rest) := by
  have hnbits := s.nbits.isLt
  have hbits (rest : List Bool) : s.pendingBits ++ (symbolBits v ++ rest) =
      bitsMsb (s.nbits.toNat + 5) (packedBits s.acc v).toNat ++ rest := by
    rw [← List.append_assoc, State.pendingBits, bitsMsb_append_symbolBits]
  rcases Nat.lt_or_ge (s.nbits.toNat + 5) 8 with hn | hn
  · have hpend : (s.pack v).pendingBits = bitsMsb (s.nbits.toNat + 5) (packedBits s.acc v).toNat := by
      rw [State.pack_of_lt v hn, State.pendingBits, BitVec.toNat_ofNat, Nat.mod_eq_of_lt hn, BitVec.toNat_setWidth,
        bitsMsb_mod (by omega)]
    refine ⟨[], ?_, fun rest => by rw [hbits, hpend, List.nil_append]⟩
    rw [List.append_nil, State.pack_of_lt v hn]
    exact h.withPendingBits
  · obtain ⟨k, hk⟩ : ∃ k, s.nbits.toNat + 5 = 8 + k := Nat.exists_eq_add_of_le hn
    have hpend : (s.pack v).pendingBits = bitsMsb k (packedBits s.acc v).toNat := by
      obtain ⟨hacc', hnbits'⟩ := State.pack_toNat_of_le v hn
      rw [State.pendingBits, hacc', hnbits', packedBits_toNat, hk, Nat.add_sub_cancel_left, bitsMsb_mod le_rfl]
    have hbyte : ((packedBits s.acc v >>> k).setWidth 8).toNat = (packedBits s.acc v).toNat / 2 ^ k % 2 ^ 8 := by
      rw [producedByte_toNat, packedBits_toNat]
    refine ⟨[(packedBits s.acc v >>> k).setWidth 8], ?_, fun rest => ?_⟩
    · rw [State.pack_of_le v hn, hk, Nat.add_sub_cancel_left]
      exact (h.appendKeyByte _).withPendingBits
    · rw [hbits, hpend, hk, bitsMsb_add, ← bitsMsb_mod le_rfl (_ / _), ← hbyte, List.append_assoc,
        sliceBytes_bitsMsb_append]
      rfl

end Produced

theorem State.pendingBits_length (s : State) : s.pendingBits.length < 8 := by
  rw [State.pendingBits, bitsMsb_length]
  exact s.nbits.isLt

/-- A character outside the alphabet packs no bits (40 R101). -/
theorem State.rejectChar_pendingBits (s : State) : s.rejectChar.pendingBits = s.pendingBits := by
  unfold State.rejectChar
  split <;> rfl

/-- The bytes that a secret's characters produce are those that the pending bits and the characters' bits slice into
(40 R105). -/
theorem Produced.pushAll {out : List Byte} {s : State} (h : Produced out s) (cs : List Byte) :
    Produced (out ++ sliceBytes (s.pendingBits ++ (symbolValues cs).flatMap symbolBits)) (s.pushAll cs) := by
  induction cs generalizing out s with
  | nil =>
    have hnone : sliceBytes (s.pendingBits ++ (symbolValues []).flatMap symbolBits) = [] := by
      refine sliceBytes_of_short ?_
      simpa [symbolValues] using s.pendingBits_length
    rwa [hnone, List.append_nil]
  | cons c cs ih =>
    rw [State.pushAll_cons]
    cases hv : classify c with
    | none =>
      have hvalues : symbolValues (c :: cs) = symbolValues cs := List.filterMap_cons_none hv
      rw [State.pushChar_of_none hv, hvalues, ← s.rejectChar_pendingBits]
      exact ih h.rejectChar
    | some v =>
      have hvalues : symbolValues (c :: cs) = v :: symbolValues cs := List.filterMap_cons_some hv
      obtain ⟨new, hnew, hslice⟩ := h.pack v
      rw [State.pushChar_of_some hv, hvalues, List.flatMap_cons, hslice, ← List.append_assoc]
      exact ih hnew

/-- From an empty decoder a secret's characters produce what the source decodes them to (40 R105). -/
theorem Produced.pushAll_of_openEmpty {s : State} (hp : s.params.wf = true) (h : OpenEmpty s) (cs : List Byte) :
    Produced (decodeSecret cs) (s.pushAll cs) := by
  have hpush := (Produced.of_openEmpty hp h).pushAll cs
  obtain ⟨hacc, hnbits, -⟩ := h
  rwa [State.pendingBits, hacc, hnbits] at hpush

/-! ### What the flags say -/

@[simp] theorem State.appendKeyByte_status_errInvalidSecret (s : State) (b : Byte) :
    (s.appendKeyByte b).status.errInvalidSecret = s.status.errInvalidSecret := by
  unfold State.appendKeyByte
  split <;> rfl

@[simp] theorem State.pack_status_errInvalidSecret (s : State) (v : BitVec 5) :
    (s.pack v).status.errInvalidSecret = s.status.errInvalidSecret := by
  rcases Nat.lt_or_ge (s.nbits.toNat + 5) 8 with hn | hn
  · rw [State.pack_of_lt v hn]
  · rw [State.pack_of_le v hn, State.appendKeyByte_status_errInvalidSecret]

theorem State.pushChar_errInvalidSecret (s : State) (c : Byte) : (s.pushChar c).status.errInvalidSecret = true ↔
    s.status.errInvalidSecret = true ∨ (s.ctrl.strict = true ∧ classify c = none) := by
  cases hv : classify c with
  | none =>
    rw [State.pushChar_of_none hv, State.rejectChar]
    split <;> simp [*]
  | some v =>
    simp [State.pushChar_of_some hv]

/-- ERR_INVALID_SECRET after a secret's characters (40 R101). -/
theorem State.pushAll_errInvalidSecret (s : State) (cs : List Byte) :
    (s.pushAll cs).status.errInvalidSecret = true ↔
      s.status.errInvalidSecret = true ∨ (s.ctrl.strict = true ∧ ∃ c ∈ cs, classify c = none) := by
  induction cs generalizing s with
  | nil => simp
  | cons c cs ih =>
    rw [State.pushAll_cons, ih, State.pushChar_errInvalidSecret, (s.pushFrame_pushChar c).ctrl, or_assoc, ← and_or_left,
      List.exists_mem_cons_iff]

/-- Right after DEC_CLEAR or reset the decoder is open and empty (40 R100, 70 R192). -/
theorem openEmpty_of_cleared_or_reset {s : State}
    (h : (∃ s0, exec .decClear s0 = .next s) ∨ s = State.resetWith s.params) : OpenEmpty s := by
  rcases h with ⟨s0, h0⟩ | h
  · cases h0
    exact s0.openEmpty_cleared
  · rw [h]
    exact State.openEmpty_resetWith _

/-- A whole secret after DEC_CLEAR or reset: it completes, with what its characters have produced (40 R105). -/
theorem performAll_secret_of_openEmpty {s : State} (hp : s.params.wf = true) (h : OpenEmpty s) (cs : List Byte) :
    ∃ u, performAll (secretCommands cs) s = .next (finishedState u) ∧ PushFrame s u ∧ Produced (decodeSecret cs) u ∧
      (u.status.errInvalidSecret = true ↔ s.ctrl.strict = true ∧ ∃ c ∈ cs, classify c = none) := by
  refine ⟨s.pushAll cs, ?_, s.pushFrame_pushAll cs, .pushAll_of_openEmpty hp h cs, ?_⟩
  · obtain ⟨-, -, -, -, hopen, -⟩ := h
    exact performAll_secretCommands hopen cs
  · obtain ⟨-, -, -, -, -, -, hinvalid, -⟩ := h
    simp [State.pushAll_errInvalidSecret, hinvalid]

/-- Settles O10: the bytes produced fit, so the key is all of them, and KEY_VALID turns on the characters and the
length policy. -/
theorem pushedSecretDecodesLikeTheSource : Obligations.PushedSecretDecodesLikeTheSource := by
  intro s cs hp hstart hfit
  obtain ⟨u, hrun, hframe, hprod, hinvalid⟩ :=
    performAll_secret_of_openEmpty hp (openEmpty_of_cleared_or_reset hstart) cs
  rw [← decodeSecret_length, ← hframe.params] at hfit
  have hover : u.status.errKeyOverflow = false := by
    rw [← Bool.not_eq_true, hprod.overflow_iff]
    exact Nat.not_lt.2 hfit
  refine ⟨finishedState u, hrun, hprod.key_eq.trans (List.take_of_length_le hfit), ?_, rfl, fun hs hbad => ?_,
    fun hgood => ?_, hframe.sameConfig, hframe.results⟩
  · exact (hprod.keyLen_toNat.trans (Nat.min_eq_right hfit)).trans (decodeSecret_length cs)
  · have hu : u.status.errInvalidSecret = true := hinvalid.2 ⟨hs, hbad⟩
    refine ⟨?_, hu⟩
    rw [← Bool.not_eq_true, finishedState_keyValid_iff, hu]
    simp
  · have hu : u.status.errInvalidSecret = false := by
      rw [← Bool.not_eq_true, hinvalid]
      rintro ⟨hs, c, hc, hnone⟩
      rcases hgood with hs' | hall
      · simp [hs'] at hs
      · exact hall c hc hnone
    rw [finishedState_keyValid_iff, hframe.ctrl]
    exact (and_iff_right hu).trans (and_iff_right hover)

/-- Settles O11: the bytes produced do not fit, so the buffer is full, the overflow is set and the key rejected. -/
theorem overlongSecretIsRejected : Obligations.OverlongSecretIsRejected := by
  intro s cs hp hstart hlong
  obtain ⟨u, hrun, hframe, hprod, -⟩ :=
    performAll_secret_of_openEmpty hp (openEmpty_of_cleared_or_reset hstart) cs
  have hparams := hframe.params
  rw [← decodeSecret_length, ← hparams] at hlong
  have hover : u.status.errKeyOverflow = true := hprod.overflow_iff.2 hlong
  rw [← hparams]
  refine ⟨finishedState u, hrun, hprod.key_eq, ?_, hover, rfl, ?_⟩
  · exact hprod.keyLen_toNat.trans (Nat.min_eq_left hlong.le)
  · rw [← Bool.not_eq_true, finishedState_keyValid_iff, hover]
    simp

end Sys2Proof.Machine

/-! ## Proofs: the TOTP engine -/

namespace Sys2Proof.Machine

/-! ### Bytes of a list -/

theorem byteAt_of_length_le {l : List Byte} {i : Nat} (h : l.length ≤ i) : byteAt l i = 0 :=
  List.getD_eq_default _ _ h

theorem byteAt_mem {l : List Byte} {i : Nat} (h : i < l.length) : byteAt l i ∈ l := by
  rw [byteAt, List.getD_eq_getElem _ _ h]
  exact List.getElem_mem h

/-! ### The counter message -/

/-- Byte `k` of the message is bits 63-8k to 56-8k (00 R10). -/
theorem byteAt_be64 (x : DWord) {k : Nat} (hk : k < 8) : byteAt (be64 x) k = x.extractLsb' (56 - 8 * k) 8 := by
  rw [byteAt, List.getD_eq_getElem _ _ (hk.trans_eq (be64_length x).symm)]
  simp [be64]

/-- The first `n` bytes of the message, read big-endian, are the high `8n` bits of the value (00 R10). -/
theorem be64_firstBytes_value (x : DWord) {n : Nat} (hn : n ≤ 8) :
    ((List.range n).map fun k => x.extractLsb' (56 - 8 * k) 8).foldl (fun a b => 256 * a + b.toNat) 0 =
      x.toNat / 2 ^ (64 - 8 * n) := by
  induction n with
  | zero => exact (Nat.div_eq_of_lt x.isLt).symm
  | succ n ih =>
    have hpow : 2 ^ (64 - 8 * n) = 2 ^ (64 - 8 * (n + 1)) * 2 ^ 8 := by
      rw [← pow_add]
      congr 1
      omega
    rw [List.range_succ, List.map_append, List.foldl_append, ih (by omega), hpow, ← Nat.div_div_eq_div_mul]
    simp only [List.map_singleton, List.foldl_cons, List.foldl_nil, BitVec.extractLsb'_toNat,
      Nat.shiftRight_eq_div_pow, show 56 - 8 * n = 64 - 8 * (n + 1) by omega]
    exact Nat.div_add_mod _ (2 ^ 8)

/-- Settles O21: the bytes are slices of the counter, and its first 8 bytes are all of it. -/
theorem counterMessageIsBigEndian : Obligations.CounterMessageIsBigEndian := by
  intro x
  refine ⟨be64_length x, fun k hk => ?_, ?_⟩
  · rw [byteAt_be64 x hk, BitVec.extractLsb'_toNat, Nat.shiftRight_eq_div_pow]
  · rw [be64, be64_firstBytes_value x le_rfl]
    exact Nat.div_one _

/-! ### The decimal string -/

theorem dec_succ (n w : Nat) : dec n (w + 1) = dec (n / 10) w ++ [0x30 + BitVec.ofNat 8 (n % 10)] := rfl

theorem dec_length (n w : Nat) : (dec n w).length = w := by
  induction w generalizing n with
  | zero => rfl
  | succ w ih => rw [dec_succ, List.length_append, ih, List.length_singleton]

/-- The character of a decimal digit, as a number (41 R125). -/
theorem digitChar_toNat (n : Nat) : (0x30 + BitVec.ofNat 8 (n % 10) : Byte).toNat = 0x30 + n % 10 := by
  have hbase : (0x30 : Byte).toNat = 0x30 := rfl
  rw [BitVec.toNat_add, BitVec.toNat_ofNat, hbase]
  omega

theorem dec_digit {n w : Nat} {c : Byte} (hc : c ∈ dec n w) : 0x30 ≤ c.toNat ∧ c.toNat ≤ 0x39 := by
  induction w generalizing n with
  | zero => exact absurd hc List.not_mem_nil
  | succ w ih =>
    rw [dec_succ, List.mem_append, List.mem_singleton] at hc
    rcases hc with hc | rfl
    · exact ih hc
    · rw [digitChar_toNat]
      omega

/-- The string of `w` characters reads as the last `w` decimal digits of the number (41 R125). -/
theorem dec_value (n w : Nat) : (dec n w).foldl (fun a c => 10 * a + (c.toNat - 0x30)) 0 = n % 10 ^ w := by
  induction w generalizing n with
  | zero => exact (Nat.mod_one n).symm
  | succ w ih =>
    rw [dec_succ, List.foldl_append, ih, List.foldl_cons, List.foldl_nil, digitChar_toNat, pow_succ', Nat.mod_mul,
      Nat.add_sub_cancel_left, Nat.add_comm]

/-- Settles O19, by the length, the characters and the value of the string. -/
theorem decIsTheDecimalString : Obligations.DecIsTheDecimalString := fun n w =>
  ⟨dec_length n w, fun _ hc => dec_digit hc, fun hn => (dec_value n w).trans (Nat.mod_eq_of_lt hn)⟩

/-! ### The outputs of one performance -/

theorem totpCounter_toNat (now : DWord) (ts : Word) : (totpCounter now ts).toNat = now.toNat / ts.toNat := by
  rw [totpCounter, BitVec.toNat_ofNat, Nat.mod_eq_of_lt ((Nat.div_le_self _ _).trans_lt now.isLt)]

theorem secondsRemaining_toNat (now : DWord) (ts : Word) :
    (secondsRemaining now ts).toNat = ts.toNat - now.toNat % ts.toNat := by
  rw [secondsRemaining, BitVec.toNat_ofNat, Nat.mod_eq_of_lt ((Nat.sub_le _ _).trans_lt ts.isLt)]

/-- CODE_BIN holds the reduced code whole (41 R125, 10 R35). -/
theorem totpResults_codeBin_toNat (key : List Byte) (now : DWord) (ts dg : Word) :
    (totpResults key now ts dg).codeBin.toNat = reduceCode (totpResults key now ts dg).code31 dg.toNat := by
  refine (BitVec.toNat_ofNat _ _).trans (Nat.mod_eq_of_lt ?_)
  exact (reduceCode_lt _ _).trans (by decide)

/-- Settles O16, by each committed value as a number. -/
theorem committedValuesInRange : Obligations.CommittedValuesInRange := by
  intro key now ts dg hts _ _ r
  have hcounter : r.counter.toNat = now.toNat / ts.toNat := totpCounter_toNat now ts
  have hrem : r.remaining.toNat = ts.toNat - now.toNat % ts.toNat := secondsRemaining_toNat now ts
  have hbin : r.codeBin.toNat = r.code31.toNat % 10 ^ dg.toNat := totpResults_codeBin_toNat key now ts dg
  have hmod : now.toNat % ts.toNat < ts.toNat := Nat.mod_lt _ hts
  refine ⟨hcounter, fun h1 => ?_, hrem, ?_, ?_, fun h0 => ?_, ?_, ?_, ?_, fun h10 => ?_⟩
  · exact BitVec.eq_of_toNat_eq (by rw [hcounter, h1, Nat.div_one])
  · omega
  · omega
  · exact BitVec.eq_of_toNat_eq (by rw [hrem, h0, Nat.sub_zero])
  · have := r.offset.isLt
    omega
  · rw [hbin]
    exact Nat.mod_lt _ (Nat.pow_pos (by decide))
  · rw [hbin]
    exact reduceCode_lt r.code31 dg.toNat
  · rw [hbin, h10]
    exact Nat.mod_eq_of_lt (r.code31.isLt.trans (by decide))

/-- Settles O17: the time enters the results through the counter, but for REMAINING. -/
theorem sameStepSameCode : Obligations.SameStepSameCode := by
  intro key now1 now2 ts dg hts hstep hle r1 r2
  have hcounter : totpCounter now1 ts = totpCounter now2 ts := congrArg (BitVec.ofNat 64) hstep
  refine ⟨?_, ?_⟩
  · simp only [r1, r2, totpResults, hcounter]
  · have h1 := Nat.div_add_mod now1.toNat ts.toNat
    have h2 := Nat.div_add_mod now2.toNat ts.toNat
    have hlt := Nat.mod_lt now2.toNat hts
    rw [hstep] at h1
    simp only [r1, r2, totpResults, secondsRemaining_toNat]
    omega

/-- Settles O18: the time step added to NOW does not wrap around and is one more quotient, with the same remainder. -/
theorem nextStepCountsOneMore : Obligations.NextStepCountsOneMore := by
  intro key now ts dg hts hfit r r'
  have hnow : (now + ts.setWidth 64).toNat = now.toNat + ts.toNat := by
    rw [BitVec.toNat_add, BitVec.toNat_setWidth_of_le (by decide), Nat.mod_eq_of_lt hfit]
  refine ⟨?_, ?_⟩
  · simp only [r, r', totpResults, totpCounter_toNat, hnow]
    exact Nat.add_div_right _ hts
  · simp only [r, r', totpResults, secondsRemaining, hnow, Nat.add_mod_right]

/-! ### The code string in its registers -/

/-- Word `w` of three packed words in a row (10 R39). -/
theorem packedWords_word (f : Nat → Byte) {w : Nat} (hw : w < 3) :
    (packWord f 0 ++ packWord f 1 ++ packWord f 2).toNat / 2 ^ (64 - 32 * w) % 2 ^ 32 = (packWord f w).toNat := by
  have h0 := (packWord f 0).isLt
  have h1 := (packWord f 1).isLt
  have h2 := (packWord f 2).isLt
  rw [append_toNat, append_toNat]
  interval_cases w <;> omega

/-- Byte `i` of three packed words in a row (41 R126, 10 R39). -/
theorem packedWords_byte (f : Nat → Byte) {i : Nat} (hi : i < 12) :
    (packWord f 0 ++ packWord f 1 ++ packWord f 2).toNat / 2 ^ (88 - 8 * i) % 2 ^ 8 = (f i).toNat := by
  obtain ⟨w, j, hj, rfl⟩ : ∃ w j, j < 4 ∧ i = 4 * w + j := ⟨i / 4, i % 4, by omega, by omega⟩
  have hbits : 2 ^ 32 = 2 ^ (24 - 8 * j) * 2 ^ (8 + 8 * j) := by
    rw [← pow_add]
    congr 1
    omega
  rw [← packWord_byte f w hj, ← packedWords_word f (w := w) (by omega), hbits, Nat.mod_mul_right_div_self,
    Nat.div_div_eq_div_mul, ← pow_add, Nat.mod_mod_of_dvd _ (pow_dvd_pow 2 (by omega)),
    show 88 - 8 * (4 * w + j) = 64 - 32 * w + (24 - 8 * j) by omega]

/-- Settles O20: the shown bytes are those of the decimal string, which has DIGITS characters. -/
theorem codeStringPlacement : Obligations.CodeStringPlacement := by
  intro key now ts dg i _ hi r str shown
  have hstr : str = dec (reduceCode r.code31 dg.toNat) dg.toNat := by
    simp only [str, r, totpResults_codeBin_toNat]
  have hshown : shown = (byteAt str i).toNat := by
    rw [hstr]
    exact packedWords_byte _ hi
  have hlen : str.length = dg.toNat := dec_length _ _
  rw [hshown]
  refine ⟨fun hlt => ⟨rfl, dec_digit (byteAt_mem (hlt.trans_eq hlen.symm))⟩, fun hle => ?_⟩
  rw [byteAt_of_length_le (hlen.trans_le hle)]
  rfl

/-! ### TOTP_GENERATE -/

/-- TOTP_GENERATE with a valid key, where the digest cannot fail (41 R128). -/
theorem exec_totpGenerate_of_noDraw {s : State} (hv : s.status.keyValid = true)
    (hp : s.params.digestFaultPossible = false) :
    exec .totpGenerate s = .next (s.commit (totpResults s.key s.now s.timeStep s.digits)) := by
  simp [exec, execTotpGenerate, State.drawDigest, hv, hp]

/-- TOTP_GENERATE with a valid key, where the digest can fail (41 R129). -/
theorem exec_totpGenerate_of_draw {s : State} (hv : s.status.keyValid = true)
    (hp : s.params.digestFaultPossible = true) :
    exec .totpGenerate s = .next (if Config.freeDigestFails s.draws = true then s.drawn.fail .digest
      else s.drawn.commit (totpResults s.key s.now s.timeStep s.digits)) := by
  simp only [exec, execTotpGenerate, State.drawDigest, hv, hp, if_true]
  cases Config.freeDigestFails s.draws <;> rfl

/-- TOTP_GENERATE leaves the key, the configuration and the surroundings as they are (41 R120). -/
theorem exec_totpGenerate_frame {s t : State} (h : exec .totpGenerate s = .next t) :
    SameKeyData s t ∧ SameConfig s t ∧ SameSurroundings s t := by
  have he := exec_effect h
  refine ⟨?_, he.sameConfig_and_surroundings nofun⟩
  cases he with
  | noKey _ | digestFailed _ _ _ | committed _ _ | committedDrawn _ _ _ => exact ⟨rfl, rfl, rfl, fun _ => rfl⟩

/-- Settles O13, by the failing state. -/
theorem totpWithoutValidKeyFails : Obligations.TotpWithoutValidKeyFails := by
  intro s hv
  have hexec := exec_totpGenerate_of_noKey hv
  obtain ⟨hkey, hconfig, hsurroundings⟩ := exec_totpGenerate_frame hexec
  exact ⟨s.fail .noKey, hexec, rfl, rfl, readReg_eq_zero_of_results_zero rfl, hkey, hconfig, hsurroundings, rfl⟩

/-- Settles O15, by the two outcomes of the draw. -/
theorem totpDigestDrawDecides : Obligations.TotpDigestDrawDecides := by
  intro s hv hp
  have hexec := exec_totpGenerate_of_draw hv hp
  refine ⟨_, hexec, ?_, ?_, exec_totpGenerate_frame hexec⟩
  · split <;> rfl
  · split_ifs <;> exact ⟨rfl, rfl⟩

/-- OFFSET reads as its field (10 R33). -/
theorem readReg_offset_toNat (s : State) : (readReg s .offset).toNat = s.results.offset.toNat :=
  BitVec.toNat_setWidth_of_le (by decide)

/-- CODE31 reads as its field (10 R34). -/
theorem readReg_code31_toNat (s : State) : (readReg s .code31).toNat = s.results.code31.toNat :=
  BitVec.toNat_setWidth_of_le (by decide)

/-- DIGEST0..4 read as the words of the digest (10 R38). -/
theorem readReg_digest_of_digestWords {s : State} {d : List Byte} (h : s.results.digest = digestWords d) (k : Fin 5) :
    readReg s (.digest k) = packWord (byteAt d) k.val := by
  fin_cases k <;> simp only [readReg, h, digestWords]

/-- CODE_STR0..2 read as the words of the string (10 R39). -/
theorem readReg_codeStr_of_codeStrWords {s : State} {str : List Byte} (h : s.results.codeStr = codeStrWords str)
    (w : Fin 3) : readReg s (.codeStr w) = packWord (byteAt str) w.val := by
  fin_cases w <;> simp only [readReg, h, codeStrWords]

/-- Settles O14: the committed results read back as the values of the eight steps. -/
theorem totpGenerateCommitsTheCode : Obligations.TotpGenerateCommitsTheCode := by
  intro s hv hp _
  have hexec := exec_totpGenerate_of_noDraw hv hp
  obtain ⟨hkey, hconfig, hsurroundings⟩ := exec_totpGenerate_frame hexec
  refine ⟨_, hexec, ?_, rfl, hkey, hconfig, hsurroundings, rfl⟩
  rw [← State.now_toNat]
  intro now ts dg digest byte o code
  have ho : (truncOffset digest).toNat = o := truncOffset_toNat digest
  have hcode : (truncCode digest).toNat = code := by
    rw [truncCode_toNat, ho]
  have htrunc : reduceCode (truncCode digest) dg = code % 10 ^ dg := by
    rw [reduceCode, hcode]
  refine ⟨?_, ?_, ?_, ?_, ?_, fun k => ?_, fun w => ?_⟩
  · exact (readReg_counter_toNat _).trans (totpCounter_toNat s.now s.timeStep)
  · exact (readReg_offset_toNat _).trans ho
  · exact (readReg_code31_toNat _).trans hcode
  · exact (totpResults_codeBin_toNat s.key s.now s.timeStep s.digits).trans htrunc
  · exact secondsRemaining_toNat s.now s.timeStep
  · rw [readReg_digest_of_digestWords (d := digest) rfl, packWord_toNat]
  · rw [← htrunc]
    exact readReg_codeStr_of_codeStrWords rfl w

end Sys2Proof.Machine

/-! ## Proofs: SHA-1 and HMAC-SHA1 -/

namespace Sys2Proof.Machine

/-! ### Padding -/

/-- The zero bytes fill the length to 56 modulo 64 (42 R143). -/
theorem padZeros_fills (n : Nat) : (n + 1 + padZeros n) % 64 = 56 := by
  unfold padZeros
  omega

/-- No shorter run of zero bytes does (42 R143). -/
theorem padZeros_le {n j : Nat} (h : (n + 1 + j) % 64 = 56) : padZeros n ≤ j := by
  unfold padZeros
  omega

/-- The padded message is made of whole blocks (42 R143). -/
theorem sha1Pad_length_mod (m : List Byte) : (sha1Pad m).length % 64 = 0 := by
  have hfill := padZeros_fills m.length
  rw [sha1Pad_length]
  omega

/-- Settles O23: `padZeros` gives the run of zero bytes. -/
theorem sha1PaddingShape : Obligations.Sha1PaddingShape := fun m =>
  ⟨padZeros m.length, rfl, padZeros_fills m.length, fun _ => padZeros_le, sha1Pad_length_mod m⟩

/-! ### Sizes of HMAC-SHA1 -/

/-- A digest is five words (42 R148). -/
theorem sha1_length (m : List Byte) : (sha1 m).length = 20 := by
  simp only [sha1, List.length_append, be32_length]

/-- A key of at most one block is used as it is (42 R141). -/
theorem prepKey_of_le {key : List Byte} (h : key.length ≤ 64) :
    prepKey key = key ++ List.replicate (64 - key.length) 0 := by
  simp only [prepKey, if_neg (Nat.not_lt.2 h)]

/-- A key of more than one block is hashed (42 R141). -/
theorem prepKey_of_lt {key : List Byte} (h : 64 < key.length) :
    prepKey key = sha1 key ++ List.replicate 44 0 := by
  simp only [prepKey, if_pos h, sha1_length, Nat.reduceSub]

theorem prepKey_length (key : List Byte) : (prepKey key).length = 64 := by
  rcases Nat.lt_or_ge 64 key.length with h | h
  · rw [prepKey_of_lt h, List.length_append, sha1_length, List.length_replicate]
  · rw [prepKey_of_le h, List.length_append, List.length_replicate, Nat.add_sub_cancel' h]

theorem xorPad_length (k : List Byte) (b : Byte) : (xorPad k b).length = k.length := List.length_map _

/-- A message of 56 to 119 bytes pads to two blocks (42 R143). -/
theorem sha1Pad_length_eq_128 {m : List Byte} (h1 : 56 ≤ m.length) (h2 : m.length ≤ 119) : (sha1Pad m).length = 128 := by
  rw [sha1Pad_length, padZeros]
  omega

/-- Settles O24: the masked key and a message of 8 or 20 bytes make 72 or 84 bytes, two blocks once padded. -/
theorem hmacKeyAndBlockSizes : Obligations.HmacKeyAndBlockSizes := by
  intro key msg
  refine ⟨prepKey_length key, prepKey_of_le, prepKey_of_lt, sha1_length msg, sha1_length _, fun hmsg b => ?_⟩
  have hlen : (xorPad (prepKey key) b ++ msg).length = 64 + msg.length := by
    rw [List.length_append, xorPad_length, prepKey_length]
  exact sha1Pad_length_eq_128 (by omega) (by omega)

/-! ### Known answers -/

/-- Settles O22: each answer is a closed run of the hash, and the truncation's offset 10 (the low half of the last byte,
0x5A) points into the digest's third word. -/
theorem hashKnownAnswers : Obligations.HashKnownAnswers := by
  refine ⟨?empty, ?abc, ?hmac, ?truncation⟩
  case empty | abc | hmac => decide +kernel
  case truncation => decide

end Sys2Proof.Machine

/-! ## Proofs: the control of the block -/

namespace Sys2Proof.Machine

/-! ### The write to CMD -/

theorem writeOffset_cmd (w : Word) (s : State) : writeOffset 0x008 w s = writeCmd w s := writeOffset_offsetOf .cmd w s

/-- A write of SOFT_RESET's word is SOFT_RESET whatever BUSY is (43 R163). -/
theorem writeCmd_softReset (s : State) : writeCmd 0x000000FF s = exec .softReset s := if_pos rfl

/-- A write of a legal word to CMD while BUSY = 0 is accepted (43 R160). -/
theorem writeCmd_of_legal {w : Word} {i : Instr} {s : State} (hd : decode w = .instr i) (hw : w ≠ 0x000000FF)
    (hb : s.status.busy = false) : writeCmd w s = .next (s.accept w) := by
  rw [writeCmd, if_neg hw, if_neg (by simp [hb]), hd]

/-- What acceptance changes, RESULT_VALID by the accepted word (43 R160). -/
theorem State.accept_eq (w : Word) (s : State) : s.accept w = { s with
    pending := some w
    delay := (s.accept w).delay
    draws := (s.accept w).draws
    status := { s.status with
      busy := true
      resultValid := if w = 0x00000010 then false else s.status.resultValid } } := by
  have hvalid : (s.status.resultValid && !(w == 0x00000010#32)) =
      if w = 0x00000010 then false else s.status.resultValid := by
    by_cases hw : w = 0x00000010#32 <;> simp [hw]
  rw [← hvalid]
  rfl

/-- Settles O28, by the four outcomes of the write in the order of their tests. -/
theorem cmdWriteOrderOfTests : Obligations.CmdWriteOrderOfTests := by
  intro w s
  obtain ⟨hlegal, -, -⟩ := legalWordsMatchExactlyOneRow w
  rw [writeOffset_cmd]
  by_cases hw : w = 0x000000FF
  · refine ⟨s.softReset, hw ▸ writeCmd_softReset s, ?_⟩
    rw [if_pos hw]
    rfl
  by_cases hb : s.status.busy = true
  · refine ⟨s.raise .busy, writeCmd_of_busy hw hb, ?_⟩
    rw [if_neg hw, if_pos hb]
    rfl
  have hidle := eq_false_of_ne_true hb
  cases hd : decode w with
  | instr i =>
    refine ⟨s.accept w, writeCmd_of_legal hd hw hidle, ?_⟩
    rw [if_neg hw, if_neg hb, if_pos (hlegal.1 ⟨i, hd⟩)]
    exact s.accept_eq w
  | illegal why =>
    have hrow : ¬∃ r ∈ opcodeTable, r.accepts w = true := by
      rw [← hlegal, hd]
      simp
    refine ⟨s.raise .cmd, writeCmd_of_illegal hd hidle, ?_⟩
    rw [if_neg hw, if_neg hb, if_neg hrow]
    rfl

/-! ### SOFT_RESET -/

/-- No register shows what the reset event keeps besides the parameters (70 R190). -/
theorem readReg_softReset (s : State) (r : Reg) : readReg s.softReset r = readReg (State.resetWith s.params) r := rfl

/-- The reset event finds nothing more to change after itself (43 R163). -/
theorem State.softReset_softReset (s : State) : s.softReset.softReset = s.softReset := rfl

theorem Ctrl.reset_toWord : Ctrl.reset.toWord = 0x00000A01 := by decide

theorem Status.reset_toWord : Status.reset.toWord = 0 := by decide

/-- Settles O25, by the reset state with the parameters and the host's side kept. -/
theorem softResetRestoresReset : Obligations.SoftResetRestoresReset := fun s =>
  ⟨(writeOffset_cmd _ s).trans (writeCmd_softReset s), s.softReset, rfl, readReg_softReset s,
    Memory.read_nil, rfl, Status.reset_toWord, Ctrl.reset_toWord, rfl, rfl, rfl, rfl,
    congrArg Host.Outcome.next s.softReset_softReset⟩

/-! ### Whose step it is -/

theorem pendable_of_ne_softReset {i : Instr} (hi : i ≠ .softReset) : pendable i = true :=
  pendable_of_decode (decode_encode i) fun h => hi (encode_injective h)

/-- On the block's turn the step performs the pending command and retires it (43 R161). -/
theorem step_of_pending {s : State} {w : Word} {i : Instr} (hw : s.pending = some w) (hd : decode w = .instr i)
    (hi : i ≠ .softReset) (hturn : s.delay = 0 ∨ s.hostStmt = none) : step s = retireOutcome (exec i s) := by
  have hblock : s.blockTurn = true := by simpa [State.blockTurn, hw] using hturn
  simp only [step, stepAgents, hblock, performPending, hw, hd, pendable_of_ne_softReset hi, if_true]

/-- On the host's turn a write to a register is the register's write, the host being at its next statement (20 R62,
30 R86). -/
theorem step_of_regWrite {s : State} {r : Reg} {v : Word} (hturn : s.blockTurn = false)
    (hst : s.hostStmt = some (.wr (regAccess s.params r) v)) : step s = writeReg r v s.hostTick := by
  obtain ⟨h4, ha⟩ := r.offsetOf_aligned
  rw [step_of_hostStmt hturn hst, ← writeOffset_offsetOf]
  exact withAccess_aligned ha h4 s.hostTick _

/-- On the host's turn a write of SOFT_RESET's word is SOFT_RESET (43 R163). -/
theorem step_of_softResetWrite {s : State} (hturn : s.blockTurn = false)
    (hst : s.hostStmt = some (.wr (regAccess s.params .cmd) 0x000000FF)) : step s = exec .softReset s.hostTick :=
  (step_of_regWrite hturn hst).trans (writeCmd_softReset s.hostTick)

/-- Settles O29, by the two turns; the performed command answers a next state, which is retired. -/
theorem stepRunsTheDecodedCommand : Obligations.StepRunsTheDecodedCommand := by
  refine ⟨fun s w i hw hd hi hturn => ?_, fun s hturn hst => step_of_softResetWrite hturn hst⟩
  obtain ⟨t, ht⟩ := exec_next i s
  rw [ht]
  exact (step_of_pending hw hd hi hturn).trans (congrArg retireOutcome ht)

/-! ### Placing a command -/

/-- A 32-bit word is placed whole (log 4). -/
theorem State.withFetchWord_toNat (s : State) (w : Word) : s.withFetchWord 32 w.toNat = placeFetchWord s w := by
  rw [State.withFetchWord, Nat.mod_eq_of_lt w.isLt, BitVec.ofNat_toNat, BitVec.setWidth_eq]

/-- A command's word is placed in PENDING, or as the host's write where the command cannot be pending (43 R160). -/
theorem State.withFetchWord_encode (s : State) (i : Instr) : s.withFetchWord 32 (encode i).toNat =
    if pendable i then s.place (encode i) 0 else s.placeWrite (encode i) := by
  rw [withFetchWord_toNat, placeFetchWord, decode_encode]

theorem State.placeWrite_hostStmt (w : Word) (s : State) :
    (s.placeWrite w).hostStmt = some (.wr (regAccess s.params .cmd) w) := hostStmt_insertStmt _ s

/-- A command pending before the placed write waits for it (log 4). -/
theorem State.placeWrite_blockTurn (w : Word) (s : State) : (s.placeWrite w).blockTurn = false := by
  rw [State.blockTurn, s.placeWrite_hostStmt]
  cases hp : s.pending <;> simp [State.placeWrite, hp]

/-- Settles O30: SOFT_RESET's word is placed as a write, which the host's turn runs, and any other command's in PENDING
with no delay, which makes it the block's turn. -/
theorem placedCommandRunsNext : Obligations.PlacedCommandRunsNext := by
  intro s i
  rw [s.withFetchWord_encode]
  by_cases hi : i = .softReset
  · subst hi
    exact ⟨(s.placeWrite 0x000000FF).hostTick,
      step_of_softResetWrite (s.placeWrite_blockTurn _) (s.placeWrite_hostStmt _),
      ⟨rfl, rfl, rfl, rfl, rfl⟩, ⟨rfl, rfl, rfl, fun _ => rfl⟩, rfl, rfl, rfl, rfl⟩
  · rw [if_neg hi, if_pos (pendable_of_ne_softReset hi)]
    exact step_of_pending rfl (decode_encode i) hi (.inl rfl)

end Sys2Proof.Machine

/-! ## Proofs: the flags of STATUS are sticky -/

namespace Sys2Proof.Machine

/-! ### What keeps a flag -/

/-- No key flag, bits 7:4 of STATUS, goes from 1 to 0 (10 R24). -/
structure Status.KeepsKeyFlags (t u : Status) : Prop where
  errInvalidSecret : t.errInvalidSecret = true → u.errInvalidSecret = true
  warnCharSkipped : t.warnCharSkipped = true → u.warnCharSkipped = true
  errKeyOverflow : t.errKeyOverflow = true → u.errKeyOverflow = true
  warnDegenerateKey : t.warnDegenerateKey = true → u.warnDegenerateKey = true

/-- Neither a key flag nor an error bit, bits 13:4 of STATUS, goes from 1 to 0 (60 R170). -/
structure Status.KeepsFlags (t u : Status) : Prop extends t.KeepsKeyFlags u where
  errBits : ∀ e, t.has e = true → u.has e = true

theorem Status.KeepsKeyFlags.refl (t : Status) : t.KeepsKeyFlags t := ⟨id, id, id, id⟩

theorem Status.KeepsFlags.refl (t : Status) : t.KeepsFlags t := ⟨.refl t, fun _ => id⟩

theorem Status.KeepsFlags.trans {t u w : Status} (h : t.KeepsFlags u) (h' : u.KeepsFlags w) : t.KeepsFlags w where
  errInvalidSecret := h'.errInvalidSecret ∘ h.errInvalidSecret
  warnCharSkipped := h'.warnCharSkipped ∘ h.warnCharSkipped
  errKeyOverflow := h'.errKeyOverflow ∘ h.errKeyOverflow
  warnDegenerateKey := h'.warnDegenerateKey ∘ h.warnDegenerateKey
  errBits e := h'.errBits e ∘ h.errBits e

theorem Status.SameLow.keepsKeyFlags {t u : Status} (h : t.SameLow u) : t.KeepsKeyFlags u :=
  ⟨h.errInvalidSecret.trans, h.warnCharSkipped.trans, h.errKeyOverflow.trans, h.warnDegenerateKey.trans⟩

/-- `set ERR_X` sets its own bit and keeps the others (60 R170). -/
theorem Status.has_set (t : Status) (e e' : ErrBit) : (t.set e).has e' = (decide (e' = e) || t.has e') := by
  cases e <;> cases e' <;> rfl

/-- A write to STATUS clears the bits it writes a 1 to (10 R25). -/
theorem Status.has_clearBy (t : Status) (v : Word) (e : ErrBit) :
    (t.clearBy v).has e = (t.has e && !v.getLsbD e.bit) := by
  cases e <;> rfl

theorem Status.keepsFlags_set (t : Status) (e : ErrBit) : t.KeepsFlags (t.set e) :=
  ⟨(t.sameLow_set e).keepsKeyFlags, fun e' h => by rw [Status.has_set, h, Bool.or_true]⟩

/-- BUSY and RESULT_VALID are none of the flags 13:4 (10 R24). -/
theorem Status.keepsFlags_busy_resultValid (t : Status) (b r : Bool) :
    t.KeepsFlags { t with busy := b, resultValid := r } :=
  ⟨⟨id, id, id, id⟩, fun e => by cases e <;> exact id⟩

theorem State.keepsFlags_raise (s : State) (e : ErrBit) : s.status.KeepsFlags (s.raise e).status :=
  s.status.keepsFlags_set e

theorem State.keepsFlags_fail (s : State) (e : ErrBit) : s.status.KeepsFlags (s.fail e).status :=
  (s.status.keepsFlags_set e).trans ((s.status.set e).keepsFlags_busy_resultValid _ false)

theorem State.keepsFlags_commit (s : State) (r : Results) : s.status.KeepsFlags (s.commit r).status :=
  s.status.keepsFlags_busy_resultValid _ true

theorem State.keepsFlags_accept (s : State) (w : Word) : s.status.KeepsFlags (s.accept w).status :=
  s.status.keepsFlags_busy_resultValid true _

theorem State.keepsFlags_retire (s : State) : s.status.KeepsFlags s.retire.status :=
  s.status.keepsFlags_busy_resultValid false _

theorem State.keepsKeyFlags_rejectChar (s : State) : s.status.KeepsKeyFlags s.rejectChar.status := by
  unfold State.rejectChar
  split
  · exact { Status.KeepsKeyFlags.refl s.status with errInvalidSecret := fun _ => rfl }
  · exact { Status.KeepsKeyFlags.refl s.status with warnCharSkipped := fun _ => rfl }

theorem State.keepsKeyFlags_appendKeyByte (s : State) (b : Byte) :
    s.status.KeepsKeyFlags (s.appendKeyByte b).status := by
  unfold State.appendKeyByte
  split
  · exact .refl s.status
  · exact { Status.KeepsKeyFlags.refl s.status with errKeyOverflow := fun _ => rfl }

theorem State.keepsKeyFlags_pack (s : State) (v : BitVec 5) : s.status.KeepsKeyFlags (s.pack v).status := by
  rcases Nat.lt_or_ge (s.nbits.toNat + 5) 8 with hn | hn
  · rw [State.pack_of_lt v hn]
    exact .refl s.status
  · rw [State.pack_of_le v hn]
    exact s.keepsKeyFlags_appendKeyByte _

/-- DEC_PUSH of an open decoder writes no error bit (40 R101, R103). -/
theorem PushFrame.status_has {s t : State} (h : PushFrame s t) (e : ErrBit) : t.status.has e = s.status.has e := by
  rw [h.status]
  cases e <;> rfl

/-! ### The host's statements -/

/-- The statement resets the block: the platform's reset, or a write of SOFT_RESET (70 R191). -/
def HostStmt.IsReset (p : Params) (st : HostStmt) : Prop :=
  st = .platformReset ∨ st = .wr (regAccess p .cmd) 0x000000FF

theorem resetNext_of_isReset {s : State} {st : HostStmt} (hs : s.hostStmt = some st) (h : st.IsReset s.params) :
    ResetNext s :=
  h.imp (fun h => hs.trans (congrArg some h)) fun h => hs.trans (congrArg some h)

/-- A host write keeps the flags 13:4, unless it is SOFT_RESET or a write-1-to-clear of STATUS (60 R170). -/
theorem WriteEffect.flags_cases {a : Nat} {v : Word} {s t : State} (he : WriteEffect a v s t) :
    (a = 0x008 ∧ v = 0x000000FF) ∨ (a = 0x004 ∧ t.status = s.status.clearBy v) ∨ s.status.KeepsFlags t.status := by
  cases he with
  | reset ha hv => exact .inl ⟨ha, hv⟩
  | cleared ha => exact .inr (.inl ⟨ha, rfl⟩)
  | busy _ | illegal _ _ _ | refusedValue _ => exact .inr (.inr (s.keepsFlags_raise _))
  | accepted _ _ _ _ => exact .inr (.inr (s.keepsFlags_accept v))
  | ignored | ctrl _ _ | timeStep _ _ _ | digits _ _ _ | nowLo _ _ | nowHi _ _ => exact .inr (.inr (.refl s.status))

/-- A host statement keeps the flags 13:4, unless it is a reset or a write-1-to-clear of STATUS (60 R170). -/
theorem StmtEffect.flags_cases {st : HostStmt} {s t : State} (he : StmtEffect st s t) :
    st.IsReset s.params ∨ (∃ v, st = .wr (regAccess s.params .status) v ∧ t.status = s.status.clearBy v) ∨
      s.status.KeepsFlags t.status := by
  cases he with
  | write hs _ _ he =>
    rcases he.flags_cases with ⟨rfl, rfl⟩ | ⟨rfl, ht⟩ | hkeep
    · exact .inl (.inr hs)
    · exact .inr (.inl ⟨_, hs, ht⟩)
    · exact .inr (.inr hkeep)
  | read _ _ _ | onward | jump _ => exact .inr (.inr (.refl s.status))
  | reset hs => exact .inl (.inl hs)

/-! ### The block's performances -/

section ExecEffect
variable {i : Instr} {s u : State} (he : ExecEffect s i u)
include he

/-- No command that can be pending clears an error bit (60 R170). -/
theorem ExecEffect.keepsErrBits (hp : pendable i = true) {e : ErrBit} (hs : s.status.has e = true) :
    u.status.has e = true := by
  cases he with
  | cleared | finished _ => cases e <;> exact hs
  | pushWhileClosed _ _ | finishWhileClosed _ => exact (s.keepsFlags_raise .sequence).errBits e hs
  | rejected _ _ => exact (s.pushFrame_rejectChar.status_has e).trans hs
  | packed _ _ => exact ((s.pushFrame_pack _).status_has e).trans hs
  | noKey _ => exact (s.keepsFlags_fail .noKey).errBits e hs
  | digestFailed _ _ _ => exact (s.drawn.keepsFlags_fail .digest).errBits e hs
  | committed _ _ => exact (s.keepsFlags_commit _).errBits e hs
  | committedDrawn _ _ _ => exact (s.drawn.keepsFlags_commit _).errBits e hs
  | reset => cases hp

/-- No command that can be pending clears a key flag but DEC_CLEAR (60 R170). DEC_FINISH writes WARN_DEGENERATE_KEY, but
only of an open decoder, where the invariant has it 0. -/
theorem ExecEffect.decClear_or_keepsKeyFlags (h : Inv s) (hp : pendable i = true) :
    i = .decClear ∨ s.status.KeepsKeyFlags u.status := by
  cases he with
  | cleared => exact .inl rfl
  | pushWhileClosed _ _ | finishWhileClosed _ => exact .inr (s.keepsFlags_raise .sequence).toKeepsKeyFlags
  | rejected _ _ => exact .inr s.keepsKeyFlags_rejectChar
  | packed _ _ => exact .inr (s.keepsKeyFlags_pack _)
  | finished hc =>
    obtain ⟨-, hwarn⟩ := h.open_plain hc
    exact .inr ⟨id, id, id, fun hw => absurd hw (by simp [hwarn])⟩
  | noKey _ => exact .inr (s.keepsFlags_fail .noKey).toKeepsKeyFlags
  | digestFailed _ _ _ => exact .inr (s.drawn.keepsFlags_fail .digest).toKeepsKeyFlags
  | committed _ _ => exact .inr (s.keepsFlags_commit _).toKeepsKeyFlags
  | committedDrawn _ _ _ => exact .inr (s.drawn.keepsFlags_commit _).toKeepsKeyFlags
  | reset => cases hp

end ExecEffect

/-! ### The step -/

/-- Settles O50: the block's performances keep the error bits, and so do the host's statements but for resets and
write-1-to-clears. -/
theorem errorBitsAreSticky : Obligations.ErrorBitsAreSticky := by
  intro s t e hst hs ht
  have hcleared : ¬ t.status.has e = true := by simp [ht]
  cases step_effect hst with
  | performed _ _ _ hp he =>
    exact absurd ((State.keepsFlags_retire _).errBits e ((exec_effect he).keepsErrBits hp hs)) hcleared
  | hostRan hb hstmt he =>
    refine ⟨hb, ?_⟩
    rcases he.flags_cases with hreset | ⟨v, rfl, hclear⟩ | hkeep
    · exact .inl (resetNext_of_isReset hstmt hreset)
    · have hbit : (s.status.has e && !v.getLsbD e.bit) = false := by
        rw [← Status.has_clearBy]
        exact hclear ▸ ht
      exact .inr ⟨v, hstmt, by simpa [hs] using hbit⟩
    · exact absurd (hkeep.errBits e hs) hcleared
  | idle _ _ _ => exact absurd hs hcleared

/-- A step keeps the key flags, unless it performs DEC_CLEAR or resets the block (60 R170). -/
theorem step_clears_or_keepsKeyFlags {s t : State} (h : Inv s) (hst : step s = .next t) :
    ((s.blockTurn = true ∧ s.pending = some 0x00000001) ∨ (s.blockTurn = false ∧ ResetNext s)) ∨
      s.status.KeepsKeyFlags t.status := by
  cases step_effect hst with
  | performed hb hw hd hp he =>
    rcases (exec_effect he).decClear_or_keepsKeyFlags h hp with rfl | hkeep
    · exact .inl (.inl ⟨hb, hw.trans (congrArg some (eq_encode_of_decode hd))⟩)
    · exact .inr { hkeep with }
  | hostRan hb hstmt he =>
    rcases he.flags_cases with hreset | ⟨v, -, hclear⟩ | hkeep
    · exact .inl (.inr ⟨hb, resetNext_of_isReset hstmt hreset⟩)
    · exact .inr (hclear ▸ (s.status.sameLow_clearBy v).keepsKeyFlags)
    · exact .inr hkeep.toKeepsKeyFlags
  | idle _ _ _ => exact .inr (.refl s.status)

/-- Settles O51: a step that cleared a key flag did not keep them. -/
theorem keyFlagsAreSticky : Obligations.KeyFlagsAreSticky := by
  intro s t h hst hcleared
  refine (step_clears_or_keepsKeyFlags h hst).resolve_right fun hkeep => ?_
  rcases hcleared with ⟨hs, ht⟩ | ⟨hs, ht⟩ | ⟨hs, ht⟩ | ⟨hs, ht⟩
  · simp [hkeep.errInvalidSecret hs] at ht
  · simp [hkeep.warnCharSkipped hs] at ht
  · simp [hkeep.errKeyOverflow hs] at ht
  · simp [hkeep.warnDegenerateKey hs] at ht

end Sys2Proof.Machine

/-! ## Proofs: the reset state -/

namespace Sys2Proof.Machine

/-! ### What the registers show after reset -/

/-- No key byte is shown of an empty buffer (10 R40, 70 R190). -/
theorem shownKeyByte_resetWith (p : Params) : (State.resetWith p).shownKeyByte = fun _ => 0 :=
  funext fun _ => if_neg (Nat.not_lt_zero _)

theorem packWord_zero (w : Nat) : packWord (fun _ => 0) w = 0 := by
  rw [packWord]
  decide

theorem readReg_key_resetWith (p : Params) (w : Fin 64) : readReg (State.resetWith p) (.key w) = 0 := by
  rw [readReg, shownKeyByte_resetWith, packWord_zero, ite_self]

theorem readReg_decAcc_resetWith (p : Params) : readReg (State.resetWith p) .decAcc = 0 :=
  show 0#21 ++ 0#3 ++ 0#1 ++ 0#7 = 0#32 by decide

theorem readReg_counterHi_resetWith (p : Params) : readReg (State.resetWith p) .counterHi = 0 :=
  show (0#64).extractLsb' 32 32 = 0#32 by decide

theorem readReg_digest_resetWith (p : Params) (k : Fin 5) : readReg (State.resetWith p) (.digest k) = 0 := by
  fin_cases k <;> rfl

theorem readReg_codeStr_resetWith (p : Params) (w : Fin 3) : readReg (State.resetWith p) (.codeStr w) = 0 := by
  fin_cases w <;> rfl

theorem Params.default_toWord : Params.toWord Params.default = 0x00010040 := by decide

/-- Settles O26, register by register. -/
theorem resetRegisterValues : Obligations.ResetRegisterValues := by
  refine ⟨fun p r => ?_, fun p => ⟨rfl, rfl, Memory.read_nil⟩, Params.default_toWord⟩
  cases r with
  | ctrl => exact Ctrl.reset_toWord
  | status => exact Status.reset_toWord
  | digest k => exact readReg_digest_resetWith p k
  | codeStr w => exact readReg_codeStr_resetWith p w
  | key w => exact readReg_key_resetWith p w
  | decAcc => exact readReg_decAcc_resetWith p
  | counterHi => exact readReg_counterHi_resetWith p
  | cmd | timeStep | digits | nowLo | nowHi | keyLen | counterLo | offset | code31 | codeBin | remaining | params => rfl

/-! ### The platform's reset -/

/-- Settles O27: both are the reset event, and the platform's is the host's statement (70 R191). -/
theorem platformResetIsSoftReset : Obligations.PlatformResetIsSoftReset :=
  ⟨fun _ => rfl, fun _ hturn hst => step_of_hostStmt hturn hst⟩

/-! ### The invariant -/

/-- `Inv.softReset` needs a state that meets the invariant; after reset the legal parameters alone are enough
(00 R6, 70 R190). -/
theorem inv_resetWith {p : Params} (hp : p.wf = true) : Inv (State.resetWith p) where
  params_legal := hp
  keyLen_le := Nat.zero_le _
  keybuf_wf := rfl
  keybuf_tail _ _ := rfl
  acc_lt := Nat.one_pos
  closed_empty := nofun
  open_plain _ := ⟨rfl, rfl⟩
  valid_clean := nofun
  timeStep_pos := show 1 ≤ (30 : Word).toNat by decide
  digits_legal := show 1 ≤ (6 : Word).toNat ∧ (6 : Word).toNat ≤ 10 by decide
  busy_iff := rfl
  pending_legal := nofun
  generate_invalid := nofun
  results_whole := .inl rfl
  results_valid := nofun
  idle_delay _ := rfl

theorem Params.default_wf : Params.wf Params.default = true := by decide

/-- Settles O47; the defaults are a legal choice of the parameters. -/
theorem resetMeetsInvariant : Obligations.ResetMeetsInvariant :=
  ⟨fun _ hp => inv_resetWith hp, inv_resetWith Params.default_wf⟩

end Sys2Proof.Machine

/-! ## Proofs: a pending command is performed -/

namespace Sys2Proof.Machine

/-! ### A host's step while a command waits -/

/-- While BUSY = 1 a write is SOFT_RESET, or it leaves the pending command and its latency as they are (10 R45,
43 R163). -/
theorem WriteEffect.reset_or_waits {a : Nat} {v : Word} {s t : State} (he : WriteEffect a v s t)
    (hb : s.status.busy = true) :
    ((a = 0x008 ∧ v = 0x000000FF) ∧ t.pending = none) ∨ (t.pending = s.pending ∧ t.delay = s.delay) := by
  cases he with
  | reset ha hv => exact .inl ⟨⟨ha, hv⟩, rfl⟩
  | accepted _ _ hb' _ => simp [hb] at hb'
  | ignored | cleared _ | busy _ | illegal _ _ _ | ctrl _ _ | timeStep _ _ _ | digits _ _ _ | refusedValue _ | nowLo _ _
  | nowHi _ _ => exact .inr ⟨rfl, rfl⟩

/-- While BUSY = 1 a host statement is a reset, or it leaves the pending command and its latency as they are. -/
theorem StmtEffect.reset_or_waits {st : HostStmt} {s t : State} (he : StmtEffect st s t) (hb : s.status.busy = true) :
    (st.IsReset s.params ∧ t.pending = none) ∨ (t.pending = s.pending ∧ t.delay = s.delay) := by
  cases he with
  | write hs _ _ he =>
    rcases he.reset_or_waits hb with ⟨⟨rfl, rfl⟩, ht⟩ | hwaits
    · exact .inl ⟨.inr hs, ht⟩
    · exact .inr hwaits
  | read _ _ _ | onward | jump _ => exact .inr ⟨rfl, rfl⟩
  | reset hs => exact .inl ⟨.inl hs, rfl⟩

/-- With a command pending it is the block's turn once the latency has run out or the host has ended (70 R198). -/
theorem blockTurn_iff_of_pending {s : State} {w : Word} (hw : s.pending = some w) :
    s.blockTurn = true ↔ s.delay = 0 ∨ s.hostStmt = none := by
  simp [State.blockTurn, hw]

/-- The block's turn performs the pending command, which completes (43 R161). -/
theorem performs_of_blockTurn {s : State} {w : Word} {i : Instr} (hw : s.pending = some w) (hd : decode w = .instr i)
    (hp : pendable i = true) (hturn : s.blockTurn = true) : ∃ t, exec i s = .next t ∧ step s = .next t.retire := by
  have hi : i ≠ .softReset := by
    rintro rfl
    cases hp
  obtain ⟨t, ht⟩ := exec_next i s
  exact ⟨t, ht, (step_of_pending hw hd hi ((blockTurn_iff_of_pending hw).1 hturn)).trans (congrArg retireOutcome ht)⟩

/-- On the host's turn a step that goes on is a reset, which discards the pending command, or brings its performance one
step nearer (70 R198). -/
theorem hostTurn_resets_or_waits {s t : State} {w : Word} (h : Inv s) (hw : s.pending = some w)
    (hturn : s.blockTurn = false) (hst : step s = .next t) :
    (ResetNext s ∧ t.pending = none) ∨ (t.pending = some w ∧ t.delay < s.delay) := by
  cases step_effect hst with
  | performed hblock _ _ _ _ => simp [hturn] at hblock
  | hostRan _ hstmt he =>
    have hb : s.hostTick.status.busy = true := h.busy_iff.trans (by rw [hw, Option.isSome_some])
    have hdelay : s.delay ≠ 0 := fun h0 => by simp [(blockTurn_iff_of_pending hw).2 (.inl h0)] at hturn
    rcases he.reset_or_waits hb with ⟨hreset, ht⟩ | ⟨hpend, htick⟩
    · exact .inl ⟨resetNext_of_isReset hstmt hreset, ht⟩
    · rw [State.hostTick_delay] at htick
      exact .inr ⟨hpend.trans hw, by omega⟩
  | idle _ _ hnone => simp [hw] at hnone

/-! ### The end of the wait -/

/-- How the wait for the performance of `i` ends with the next step: the block performs it, or a reset of the host's
turn discards it, or the host's step stops the run (70 R198). -/
inductive WaitEnds (i : Instr) (s : State) : Prop
  | performed {t : State} (hturn : s.blockTurn = true) (he : exec i s = .next t) (hst : step s = .next t.retire)
  | discarded {t : State} (hturn : s.blockTurn = false) (hr : ResetNext s) (hst : step s = .next t)
      (ht : t.pending = none)
  | stopped (hturn : s.blockTurn = false) (hstop : goesOn (step s) = false)

/-- The next step ends the wait, or the command waits for fewer host steps after it. -/
theorem waitEnds_or_waits {s : State} {w : Word} {i : Instr} (h : Inv s) (hw : s.pending = some w)
    (hd : decode w = .instr i) (hp : pendable i = true) :
    WaitEnds i s ∨ ∃ t, step s = .next t ∧ t.pending = some w ∧ t.delay < s.delay := by
  by_cases hturn : s.blockTurn = true
  · obtain ⟨t, he, hst⟩ := performs_of_blockTurn hw hd hp hturn
    exact .inl (.performed hturn he hst)
  replace hturn := eq_false_of_ne_true hturn
  cases hst : step s with
  | next t =>
    rcases hostTurn_resets_or_waits h hw hturn hst with ⟨hr, ht⟩ | hwaits
    · exact .inl (.discarded hturn hr hst ht)
    · exact .inr ⟨t, rfl, hwaits⟩
  | fault _ | refused _ => exact .inl (.stopped hturn (by rw [hst, goesOn]))

/-- A run goes on from the state its first step answers. -/
theorem run_succ_of_step {M : Host.Core} {s t : M.State} (hst : M.step s = .next t) (k : Nat) :
    M.run (k + 1) s = M.run k t := by
  rw [Host.Core.run, hst]

/-- The wait ends within the delay: each step that does not end it makes the delay smaller (70 R198). -/
theorem waitEnds_within_delay {s : State} {w : Word} {i : Instr} (h : Inv s) (hw : s.pending = some w)
    (hd : decode w = .instr i) (hp : pendable i = true) :
    ∃ k ≤ s.delay, ∃ u, core.run k s = .next u ∧ u.pending = some w ∧ WaitEnds i u := by
  rcases waitEnds_or_waits h hw hd hp with hend | ⟨t, hst, ht, hlt⟩
  · exact ⟨0, Nat.zero_le _, s, rfl, hw, hend⟩
  · obtain ⟨k, hk, u, hrun, hu, hend⟩ := waitEnds_within_delay (stepKeepsInvariant s t h hst) ht hd hp
    exact ⟨k + 1, hk.trans_lt hlt, u, (run_succ_of_step (M := core) hst k).trans hrun, hu, hend⟩
termination_by s.delay

/-- Settles O54, by the three ways the wait ends. -/
theorem pendingCommandIsPerformed : Obligations.PendingCommandIsPerformed := by
  intro s w h hw
  obtain ⟨i, hd, hp⟩ := h.pending_legal w hw
  obtain ⟨k, hk, u, hrun, hu, hend⟩ := waitEnds_within_delay h hw hd hp
  refine ⟨k, i, hk, hd, ?_⟩
  cases hend with
  | performed hturn he hst => exact .inl ⟨u, _, hrun, hu, hturn, he, hst⟩
  | discarded hturn hr hst ht => exact .inr (.inl ⟨u, _, hrun, hu, hturn, hr, hst, ht⟩)
  | stopped hturn hstop => exact .inr (.inr ⟨u, hrun, hu, hturn, hstop⟩)

end Sys2Proof.Machine
